-- ==== Sys2Proof/Word.lean ====
section
/-! DEFINITION. Word.lean: the word types of the block and a value that may be unknown.
Widths: 00_scope.md R6, 30_encoding.md R70 and R76. Bit 0 is the least significant bit (R13). -/

namespace Sys2Proof

/-- An instruction byte, a payload byte, a position operand (`W_INSTR` = 8, R6). -/
abbrev Byte := BitVec 8

/-- Half of a byte: what one P4 or I2C transfer carries (R16). -/
abbrev Nibble := BitVec 4

/-- A 7-bit I2C device address (`W_I2C_ADDR`, R6). -/
abbrev Addr7 := BitVec 7

/-- A bus word `RS ‖ B` (30_encoding.md R70). -/
abbrev BusWord := BitVec 9

/-- A request word `OP ‖ ARG` (30_encoding.md R76). -/
abbrev RequestWord := BitVec 16

/-- Room for a Unicode scalar value, 0 to 0x10FFFF (42_controller_ops.md R164). -/
abbrev Scalar := BitVec 21

/-- A register or parameter that may hold `X`: "A register that holds `X` has no value" (00_scope.md R15).
It is the spec's own state of `TSEL`, `I2C_ADDR`, `EMR`, `DMR` and `OUT` before they are written (10_state.md R41). -/
inductive XVal (α : Type) where
  | x
  | val (v : α)
  deriving DecidableEq, Repr

end Sys2Proof
end

