-- ==== Sys2Proof/Config.lean ====
section
/-! DEFINITION. Config.lean: the parameters of 00_scope.md R7, with the spec's defaults, and the free values. A parameter is an
argument of the model: State carries one `Params`, which no step writes (log 2). A free value is an opaque constant. -/

namespace Sys2Proof

/-- The three transports (00_scope.md R2; 10_state.md R22). -/
inductive Transport where
  | p8
  | p4
  | i2c
  deriving DecidableEq, Repr, Inhabited

/-- `I2C_NIBBLE_SEQ` (00_scope.md R7; 41_transport.md R122). -/
inductive NibbleSeq where
  | threeByte
  | twoByte
  deriving DecidableEq, Repr

/-- `EXP_MAP` (00_scope.md R7): the payload bit, and so the expander pin, of each line. -/
structure ExpMap where
  rs : Fin 8
  rw : Fin 8
  en : Fin 8
  bl : Fin 8
  n0 : Fin 8
  n1 : Fin 8
  n2 : Fin 8
  n3 : Fin 8
  deriving DecidableEq, Repr

/-- The lines of the map in the order RS, RW, EN, BL, N0..N3. -/
def ExpMap.pins (m : ExpMap) : List (Fin 8) := [m.rs, m.rw, m.en, m.bl, m.n0, m.n1, m.n2, m.n3]

/-- `EXP_MAP` is a bijection (00_scope.md R7): no two lines share a payload bit. -/
def ExpMap.wf (m : ExpMap) : Bool := decide m.pins.Nodup

/-- The default map: RS=P0, RW=P1, EN=P2, BL=P3, N0..N3=P4..P7 (00_scope.md R7). -/
def ExpMap.default : ExpMap where
  rs := 0
  rw := 1
  en := 2
  bl := 3
  n0 := 4
  n1 := 5
  n2 := 6
  n3 := 7

/-- The open parameters of 00_scope.md R7; `TSEL` and `I2C_ADDR` are registers. Durations are in µs (92_eei_decisions.md D32).
`.x` in a duration or an address says that no value is given (OPEN), in `expReset` that the value is unknown. -/
structure Params where
  tEnPw : XVal Nat
  tPost : XVal Nat
  tClear : Nat
  tHome : Nat
  expMap : ExpMap
  bl : Bool
  nibbleSeq : NibbleSeq
  rsTrailer : Bool
  expReset : XVal Byte
  expAddr : XVal Addr7
  deriving DecidableEq, Repr

/-- The defaults of 00_scope.md R7. -/
def Params.default : Params where
  tEnPw := .x
  tPost := .x
  tClear := 100
  tHome := 100
  expMap := .default
  bl := true
  nibbleSeq := .threeByte
  rsTrailer := false
  expReset := .x
  expAddr := .x

/-- How a fallible primitive completes (00_scope.md R10): `ok`; `err took`, where the draw `took` says whether the target takes the
new value (41_transport.md R111, R112); or it never returns. -/
inductive Answer where
  | ok
  | err (took : Bool)
  | hang
  deriving DecidableEq, Repr, Inhabited

/-- FREE VALUE (log 1): the environment's n-th answer, "a free draw of the environment" (00_scope.md R10). -/
opaque Config.answer : Nat → Answer

/-- FREE VALUE (log 3): the transport read while `TSEL` has no value. -/
opaque Config.freeTransport : Nat → Transport

/-- FREE VALUE (log 3): the address read while `I2C_ADDR` has no value. -/
opaque Config.freeAddr : Nat → Addr7

/-- FREE VALUE (log 3): the settings read while `EMR` has no value. -/
opaque Config.freeEmr : Nat → BitVec 2

/-- FREE VALUE (log 3): the settings read while `DMR` has no value. -/
opaque Config.freeDmr : Nat → BitVec 3

end Sys2Proof
end

