-- ==== Sys2Proof/Syntax.lean ====
section
/-! DEFINITION. Syntax.lean: the settings, the instructions (one constructor per row of spec/opcode_table.json) and the lines
that carry them. -/

namespace Sys2Proof

/-- A setting On or Off (30_encoding.md R77: On = 1). -/
inductive OnOff where
  | off
  | on
  deriving DecidableEq, Repr

/-- `move_direction` (10_state.md R28; 30_encoding.md R77: Increment = 1). -/
inductive MoveDirection where
  | decrement
  | increment
  deriving DecidableEq, Repr

/-- A shift direction (30_encoding.md R77: Right = 1). -/
inductive ShiftDirection where
  | left
  | right
  deriving DecidableEq, Repr

/-- `TGT` of the SHIFT format (30_encoding.md R72: display = 1). -/
inductive ShiftTarget where
  | cursor
  | display
  deriving DecidableEq, Repr

/-- One constructor per row of spec/opcode_table.json: 15 request words (30_encoding.md R76), 3 pseudo-instructions (R84),
7 bus-word formats (R72, R73) and 9 init literals (R81). -/
inductive Instr where
  /-- `clear`, 42_controller_ops.md R153 -/
  | clear
  /-- `reset` (return home), R152 -/
  | reset
  /-- `set_display_mode`, R154 -/
  | setDisplayMode (display cursor blink : OnOff)
  /-- `set_display`, R155 -/
  | setDisplay (v : OnOff)
  /-- `set_cursor_visibility`, R156 -/
  | setCursorVisibility (v : OnOff)
  /-- `set_cursor_blink`, R157 -/
  | setCursorBlink (v : OnOff)
  /-- `set_autoscroll`, R158 -/
  | setAutoscroll (shift : OnOff)
  /-- `set_cursor_mode`, R159 -/
  | setCursorMode (direction : MoveDirection)
  /-- `set_cursor_pos`, R160 -/
  | setCursorPos (position : Byte)
  /-- `shift_cursor`, R161 -/
  | shiftCursor (direction : ShiftDirection)
  /-- `shift_display`, R162 -/
  | shiftDisplay (direction : ShiftDirection)
  /-- `write_byte`, R163 -/
  | writeByte (b : Byte)
  /-- `new_8bit`, 43_init_sequencer.md R190 -/
  | new8bit
  /-- `new_4bit`, R190 -/
  | new4bit
  /-- `new_i2c`, R190 -/
  | newI2c (address : Addr7)
  /-- `write_char`, 42_controller_ops.md R164 -/
  | writeChar (c : Scalar)
  /-- `write_bytes`, R165 -/
  | writeBytes (seq : List Byte)
  /-- `write_str`, R166 -/
  | writeStr (s : List Scalar)
  /-- bus word CLEAR, 30_encoding.md R72 -/
  | busClear
  /-- bus word HOME, R72 -/
  | busHome
  /-- bus word ENTRY, R72 -/
  | busEntry (md : MoveDirection) (ds : OnOff)
  /-- bus word DISPCTL, R72 -/
  | busDispctl (disp cur blink : OnOff)
  /-- bus word SHIFT, R72 -/
  | busShift (tgt : ShiftTarget) (dir : ShiftDirection)
  /-- bus word SETDDRAM, R72 -/
  | busSetddram (addr : Addr7)
  /-- bus word DATA, R73 -/
  | busData (b : Byte)
  /-- init literal 0x33, 30_encoding.md R81 -/
  | init33
  /-- init literal 0x32, R81 -/
  | init32
  /-- init literal 0x28, R81 -/
  | init28
  /-- init literal 0x30, R81 -/
  | init30
  /-- init literal 0x38, R81 -/
  | init38
  /-- init literal 0x0E, R81 -/
  | init0E
  /-- init literal 0x01, R81 -/
  | init01
  /-- init literal 0x07, R81 -/
  | init07
  /-- init literal 0x80, R81 -/
  | init80
  deriving DecidableEq, Repr

/-- Which part of spec/opcode_table.json an instruction's row stands in: the host operations and the constructions (format REQ16),
the pseudo-instructions (PSEUDO), the bus words (BUS9), the init literals (INIT). -/
inductive Kind where
  | operation
  | construction
  | pseudo
  | busWord
  | initLiteral
  deriving DecidableEq, Repr

/-- The part of the opcode table an instruction belongs to. -/
def Instr.kind : Instr → Kind
  | .clear => .operation
  | .reset => .operation
  | .setDisplayMode _ _ _ => .operation
  | .setDisplay _ => .operation
  | .setCursorVisibility _ => .operation
  | .setCursorBlink _ => .operation
  | .setAutoscroll _ => .operation
  | .setCursorMode _ => .operation
  | .setCursorPos _ => .operation
  | .shiftCursor _ => .operation
  | .shiftDisplay _ => .operation
  | .writeByte _ => .operation
  | .new8bit => .construction
  | .new4bit => .construction
  | .newI2c _ => .construction
  | .writeChar _ => .pseudo
  | .writeBytes _ => .pseudo
  | .writeStr _ => .pseudo
  | .busClear => .busWord
  | .busHome => .busWord
  | .busEntry _ _ => .busWord
  | .busDispctl _ _ _ => .busWord
  | .busShift _ _ => .busWord
  | .busSetddram _ => .busWord
  | .busData _ => .busWord
  | .init33 => .initLiteral
  | .init32 => .initLiteral
  | .init28 => .initLiteral
  | .init30 => .initLiteral
  | .init38 => .initLiteral
  | .init0E => .initLiteral
  | .init01 => .initLiteral
  | .init07 => .initLiteral
  | .init80 => .initLiteral

/-- One line of a host program: "one request per line" (30_encoding.md R83), a request word or one of the three
pseudo-instructions, which have no request word of their own (R84). -/
inductive HostLine where
  | request (w : RequestWord)
  | writeChar (c : Scalar)
  | writeBytes (seq : List Byte)
  | writeStr (s : List Scalar)
  deriving DecidableEq, Repr

/-- A bus word inside the block: read by the formats of 30_encoding.md R72 and R73, or as an init literal of R81. -/
inductive BusLine where
  | bus (w : BusWord)
  | init (w : BusWord)
  deriving DecidableEq, Repr

/-- What carries an instruction: a line of the host's program or a bus word inside the block ("two encoded interfaces",
30_encoding.md's opening). -/
inductive Line where
  | host (l : HostLine)
  | bus (l : BusLine)
  deriving DecidableEq, Repr

end Sys2Proof
end

