-- ==== Sys2Proof/WellFormed.lean ====
section
/-! DEFINITION. WellFormed.lean: what the operand types do not already say. Every request operand of 30_encoding.md R76 fills its
type; only the characters of `write_char` and `write_str` must be Unicode scalar values (42_controller_ops.md R164, R166). -/

namespace Sys2Proof

/-- A Unicode scalar value: 0 to 0x10FFFF (42_controller_ops.md R164) and no surrogate (PRESUMED, log 9). -/
def isScalar (c : Scalar) : Bool :=
  decide (c.toNat < 0xD800) || (decide (0xE000 ≤ c.toNat) && decide (c.toNat ≤ 0x10FFFF))

/-- An instruction whose operands the spec admits. -/
def Instr.wf : Instr → Bool
  | .clear => true
  | .reset => true
  | .setDisplayMode _ _ _ => true
  | .setDisplay _ => true
  | .setCursorVisibility _ => true
  | .setCursorBlink _ => true
  | .setAutoscroll _ => true
  | .setCursorMode _ => true
  | .setCursorPos _ => true
  | .shiftCursor _ => true
  | .shiftDisplay _ => true
  | .writeByte _ => true
  | .new8bit => true
  | .new4bit => true
  | .newI2c _ => true
  | .writeChar c => isScalar c
  | .writeBytes _ => true
  | .writeStr s => s.all isScalar
  | .busClear => true
  | .busHome => true
  | .busEntry _ _ => true
  | .busDispctl _ _ _ => true
  | .busShift _ _ => true
  | .busSetddram _ => true
  | .busData _ => true
  | .init33 => true
  | .init32 => true
  | .init28 => true
  | .init30 => true
  | .init38 => true
  | .init0E => true
  | .init01 => true
  | .init07 => true
  | .init80 => true

end Sys2Proof
end

