-- ==== Sys2Proof/Decode.lean ====
section
/-! DEFINITION. Decode.lean: the decoder of request words (30_encoding.md R76, R78), of bus words (R70, R72, R73) and of init
literals (R81), total and rejecting by name; then the encoder, from the same tables; then the program spelling (R83). -/

namespace Sys2Proof

/-- Why a line stands for no instruction. -/
inductive DecodeError where
  /-- An `OP` value not listed in 30_encoding.md R76 (R78, first item). -/
  | reservedOp (op : Byte)
  /-- A listed `OP` with a nonzero `ARG` bit where R76 marks 0 (R78, second item). -/
  | reservedArg (op arg : Byte)
  /-- A bus word of none of the formats of 30_encoding.md R72 and R73 that are composed from fields (R79). -/
  | noBusFormat (w : BusWord)
  /-- A bus word that is none of the init literals of 30_encoding.md R81. -/
  | noInitLiteral (w : BusWord)
  /-- A character that is no Unicode scalar value (42_controller_ops.md R164). -/
  | notScalar
  deriving DecidableEq, Repr

/-- Bit of a setting: On = 1 (30_encoding.md R77). -/
def OnOff.bit : OnOff → BitVec 1
  | .off => 0#1
  | .on => 1#1

/-- Bit of a direction: Increment = 1 (30_encoding.md R77). -/
def MoveDirection.bit : MoveDirection → BitVec 1
  | .decrement => 0#1
  | .increment => 1#1

/-- Bit of a shift direction: Right = 1 (30_encoding.md R77). -/
def ShiftDirection.bit : ShiftDirection → BitVec 1
  | .left => 0#1
  | .right => 1#1

/-- Bit of a shift target: display = 1 (30_encoding.md R72). -/
def ShiftTarget.bit : ShiftTarget → BitVec 1
  | .cursor => 0#1
  | .display => 1#1

/-- The setting a bit stands for (30_encoding.md R77). -/
def onOffOf (b : Bool) : OnOff := if b then .on else .off

/-- The direction a bit stands for (30_encoding.md R77). -/
def moveOf (b : Bool) : MoveDirection := if b then .increment else .decrement

/-- The shift direction a bit stands for (30_encoding.md R77). -/
def shiftOf (b : Bool) : ShiftDirection := if b then .right else .left

/-- The shift target a bit stands for (30_encoding.md R72). -/
def targetOf (b : Bool) : ShiftTarget := if b then .display else .cursor

/-- `OP`, bits 15..8 of a request word (30_encoding.md R76). -/
def reqOp (w : RequestWord) : Byte := w.extractLsb' 8 8

/-- `ARG`, bits 7..0 of a request word (30_encoding.md R76). -/
def reqArg (w : RequestWord) : Byte := w.extractLsb' 0 8

/-- Reads `ARG`, which must fit `n` bits: a higher bit set is reserved (30_encoding.md R78). -/
def argBelow (n : Nat) (op arg : Byte) (i : Instr) : Except DecodeError Instr :=
  if arg.toNat < 2 ^ n then .ok i else .error (.reservedArg op arg)

/-- The request decoder: the table of 30_encoding.md R76, every other word reserved (R78). -/
def decodeRequest (w : RequestWord) : Except DecodeError Instr :=
  let op := reqOp w
  let arg := reqArg w
  match op.toNat with
  | 0x01 => argBelow 0 op arg .clear
  | 0x02 => argBelow 0 op arg .reset
  | 0x03 => argBelow 3 op arg
      (.setDisplayMode (onOffOf (arg.getLsbD 2)) (onOffOf (arg.getLsbD 1)) (onOffOf (arg.getLsbD 0)))
  | 0x04 => argBelow 1 op arg (.setDisplay (onOffOf (arg.getLsbD 0)))
  | 0x05 => argBelow 1 op arg (.setCursorVisibility (onOffOf (arg.getLsbD 0)))
  | 0x06 => argBelow 1 op arg (.setCursorBlink (onOffOf (arg.getLsbD 0)))
  | 0x07 => argBelow 1 op arg (.setAutoscroll (onOffOf (arg.getLsbD 0)))
  | 0x08 => argBelow 1 op arg (.setCursorMode (moveOf (arg.getLsbD 0)))
  | 0x09 => argBelow 8 op arg (.setCursorPos arg)
  | 0x0A => argBelow 1 op arg (.shiftCursor (shiftOf (arg.getLsbD 0)))
  | 0x0B => argBelow 1 op arg (.shiftDisplay (shiftOf (arg.getLsbD 0)))
  | 0x0C => argBelow 8 op arg (.writeByte arg)
  | 0x10 => argBelow 0 op arg .new8bit
  | 0x11 => argBelow 0 op arg .new4bit
  | 0x12 => argBelow 7 op arg (.newI2c (arg.extractLsb' 0 7))
  | _ => .error (.reservedOp op)

/-- The bus-word decoder: the formats of 30_encoding.md R72 and R73, tried from the highest marker bit down. The FUNCSET words
are no format of fields: they are init literals (R72, R81). -/
def decodeBus (w : BusWord) : Except DecodeError Instr :=
  if w.getLsbD 8 then .ok (.busData (w.extractLsb' 0 8))
  else if w.getLsbD 7 then .ok (.busSetddram (w.extractLsb' 0 7))
  else if w.getLsbD 6 || w.getLsbD 5 then .error (.noBusFormat w)
  else if w.getLsbD 4 then
    if w.getLsbD 1 || w.getLsbD 0 then .error (.noBusFormat w)
    else .ok (.busShift (targetOf (w.getLsbD 3)) (shiftOf (w.getLsbD 2)))
  else if w.getLsbD 3 then
    .ok (.busDispctl (onOffOf (w.getLsbD 2)) (onOffOf (w.getLsbD 1)) (onOffOf (w.getLsbD 0)))
  else if w.getLsbD 2 then .ok (.busEntry (moveOf (w.getLsbD 1)) (onOffOf (w.getLsbD 0)))
  else if w = 0x002#9 then .ok .busHome
  else if w = 0x001#9 then .ok .busClear
  else .error (.noBusFormat w)

/-- The init literals (30_encoding.md R81). -/
def decodeInit (w : BusWord) : Except DecodeError Instr :=
  match w.toNat with
  | 0x033 => .ok .init33
  | 0x032 => .ok .init32
  | 0x028 => .ok .init28
  | 0x030 => .ok .init30
  | 0x038 => .ok .init38
  | 0x00E => .ok .init0E
  | 0x001 => .ok .init01
  | 0x007 => .ok .init07
  | 0x080 => .ok .init80
  | _ => .error (.noInitLiteral w)

/-- The instruction a line of the host's program stands for (30_encoding.md R76, R84). -/
def decodeHost : HostLine → Except DecodeError Instr
  | .request w => decodeRequest w
  | .writeChar c => if isScalar c then .ok (.writeChar c) else .error .notScalar
  | .writeBytes seq => .ok (.writeBytes seq)
  | .writeStr s => if s.all isScalar then .ok (.writeStr s) else .error .notScalar

/-- The instruction a bus word inside the block stands for. -/
def decodeBusLine : BusLine → Except DecodeError Instr
  | .bus w => decodeBus w
  | .init w => decodeInit w

/-- The instruction a line stands for. -/
def decodeLine : Line → Except DecodeError Instr
  | .host l => decodeHost l
  | .bus l => decodeBusLine l

/-! ## The encoder -/

/-- A request word `OP ‖ ARG` (30_encoding.md R76). -/
def requestWord (op arg : Byte) : RequestWord := op ++ arg

/-- A one-bit `ARG`, `0b0000000 v` (30_encoding.md R76). -/
def argBit (v : BitVec 1) : Byte := 0#7 ++ v

/-- The words of an instruction, from the tables of 30_encoding.md R72, R73, R76 and R81. A pseudo-instruction is a line of its
own (R84). -/
def encode : Instr → Line
  | .clear => .host (.request (requestWord 0x01#8 0x00#8))
  | .reset => .host (.request (requestWord 0x02#8 0x00#8))
  | .setDisplayMode d c b => .host (.request (requestWord 0x03#8 (0#5 ++ d.bit ++ c.bit ++ b.bit)))
  | .setDisplay v => .host (.request (requestWord 0x04#8 (argBit v.bit)))
  | .setCursorVisibility v => .host (.request (requestWord 0x05#8 (argBit v.bit)))
  | .setCursorBlink v => .host (.request (requestWord 0x06#8 (argBit v.bit)))
  | .setAutoscroll v => .host (.request (requestWord 0x07#8 (argBit v.bit)))
  | .setCursorMode v => .host (.request (requestWord 0x08#8 (argBit v.bit)))
  | .setCursorPos p => .host (.request (requestWord 0x09#8 p))
  | .shiftCursor v => .host (.request (requestWord 0x0A#8 (argBit v.bit)))
  | .shiftDisplay v => .host (.request (requestWord 0x0B#8 (argBit v.bit)))
  | .writeByte b => .host (.request (requestWord 0x0C#8 b))
  | .new8bit => .host (.request (requestWord 0x10#8 0x00#8))
  | .new4bit => .host (.request (requestWord 0x11#8 0x00#8))
  | .newI2c a => .host (.request (requestWord 0x12#8 (0#1 ++ a)))
  | .writeChar c => .host (.writeChar c)
  | .writeBytes seq => .host (.writeBytes seq)
  | .writeStr s => .host (.writeStr s)
  | .busClear => .bus (.bus 0x001#9)
  | .busHome => .bus (.bus 0x002#9)
  | .busEntry md ds => .bus (.bus (0b0000001#7 ++ md.bit ++ ds.bit))
  | .busDispctl d c b => .bus (.bus (0b000001#6 ++ d.bit ++ c.bit ++ b.bit))
  | .busShift t r => .bus (.bus (0b00001#5 ++ t.bit ++ r.bit ++ 0#2))
  | .busSetddram a => .bus (.bus (0b01#2 ++ a))
  | .busData b => .bus (.bus (1#1 ++ b))
  | .init33 => .bus (.init 0x033#9)
  | .init32 => .bus (.init 0x032#9)
  | .init28 => .bus (.init 0x028#9)
  | .init30 => .bus (.init 0x030#9)
  | .init38 => .bus (.init 0x038#9)
  | .init0E => .bus (.init 0x00E#9)
  | .init01 => .bus (.init 0x001#9)
  | .init07 => .bus (.init 0x007#9)
  | .init80 => .bus (.init 0x080#9)

/-! ## The table's numbers -/

/-- Whether a decoding answers an instruction. -/
def decodes : Except DecodeError Instr → Bool
  | .ok _ => true
  | .error _ => false

/-- The line a number of spec/opcode_table.json stands for. At most 9 bits are a bus word; more are a request word, and one that
no request takes is read as a bus word where it is one (DESIGN CHOICE, log 14). A bus word is read by the formats of 30_encoding.md
R72 and R73 first and as an init literal (R81) where no format takes it. -/
def tableLine (nbits w : Nat) : Line :=
  let b : BusWord := BitVec.ofNat 9 w
  let asBus : Line := if decodes (decodeBus b) then .bus (.bus b) else .bus (.init b)
  let r : RequestWord := BitVec.ofNat 16 w
  if nbits ≤ 9 then asBus
  else if decodes (decodeRequest r) then .host (.request r)
  else if w < 512 && (decodes (decodeBus b) || decodes (decodeInit b)) then asBus
  else .host (.request r)

/-- The instruction the decoder reads from a word numbered as spec/opcode_table.json numbers it. -/
def decodeTableWord (nbits w : Nat) : Option Instr := (decodeLine (tableLine nbits w)).toOption

/-! ## Program spelling (30_encoding.md R83) -/

/-- `On` or `Off`. -/
def OnOff.text : OnOff → String
  | .off => "Off"
  | .on => "On"

/-- `Increment` or `Decrement`. -/
def MoveDirection.text : MoveDirection → String
  | .decrement => "Decrement"
  | .increment => "Increment"

/-- `Left` or `Right`. -/
def ShiftDirection.text : ShiftDirection → String
  | .left => "Left"
  | .right => "Right"

/-- A number in hex, two digits (30_encoding.md R83). -/
def hexByte (n : Nat) : String :=
  "0x" ++ String.ofList [(Nat.digitChar (n / 16 % 16)).toUpper, (Nat.digitChar (n % 16)).toUpper]

/-- The line of a host program that spells a host instruction (30_encoding.md R83): the source's method name, then its operands.
A bus word or an init literal is no line of a host program and has no spelling. -/
def Instr.text : Instr → Option String
  | .clear => some "clear"
  | .reset => some "reset"
  | .setDisplayMode d c b => some ("set_display_mode " ++ d.text ++ ", " ++ c.text ++ ", " ++ b.text)
  | .setDisplay v => some ("set_display " ++ v.text)
  | .setCursorVisibility v => some ("set_cursor_visibility " ++ v.text)
  | .setCursorBlink v => some ("set_cursor_blink " ++ v.text)
  | .setAutoscroll v => some ("set_autoscroll " ++ v.text)
  | .setCursorMode v => some ("set_cursor_mode " ++ v.text)
  | .setCursorPos p => some ("set_cursor_pos " ++ hexByte p.toNat)
  | .shiftCursor v => some ("shift_cursor " ++ v.text)
  | .shiftDisplay v => some ("shift_display " ++ v.text)
  | .writeByte b => some ("write_byte " ++ hexByte b.toNat)
  | .new8bit => some "new_8bit"
  | .new4bit => some "new_4bit"
  | .newI2c a => some ("new_i2c " ++ hexByte a.toNat)
  | .writeChar c => some ("write_char '" ++ String.singleton (Char.ofNat c.toNat) ++ "'")
  | .writeBytes seq => some ("write_bytes [" ++ String.intercalate ", " (seq.map fun b => hexByte b.toNat) ++ "]")
  | .writeStr s => some ("write_str \"" ++ String.ofList (s.map fun c => Char.ofNat c.toNat) ++ "\"")
  | .busClear => none
  | .busHome => none
  | .busEntry _ _ => none
  | .busDispctl _ _ _ => none
  | .busShift _ _ => none
  | .busSetddram _ => none
  | .busData _ => none
  | .init33 => none
  | .init32 => none
  | .init28 => none
  | .init30 => none
  | .init38 => none
  | .init0E => none
  | .init01 => none
  | .init07 => none
  | .init80 => none

end Sys2Proof
end

