-- ==== Sys2Proof/Machine/State.lean ====
section
/-! DEFINITION. Machine/State.lean: the state of the block (10_state.md R20), the observation of a run (00_scope.md R11), the model's
own input fields, the reasons a step can stop, and the state before construction. Plain data. -/

namespace Sys2Proof.Machine

/-- `LIFE` (10_state.md R21). -/
inductive Life where
  | unbuilt
  | init
  | ready
  | absent
  deriving DecidableEq, Repr

/-- `RESP` (10_state.md R26). -/
inductive Resp where
  | none
  | ok
  | err
  deriving DecidableEq, Repr

/-- A pin level: driven low, driven high, or unknown (00_scope.md R15). -/
inductive Level where
  | L
  | H
  | X
  deriving DecidableEq, Repr

/-- A level that can be driven (41_transport.md R111: `lvl` is L or H). -/
inductive Drv where
  | L
  | H
  deriving DecidableEq, Repr

/-- The pins a transport can own (10_state.md R36): P8 has RS, EN, D0..D7; P4 has RS, EN, N0..N3. -/
inductive Pin where
  | rs | en
  | d0 | d1 | d2 | d3 | d4 | d5 | d6 | d7
  | n0 | n1 | n2 | n3
  deriving DecidableEq, Repr

/-- The level of every pin (10_state.md R37). A pin the transport does not own stays `X`. -/
structure Pins where
  rs : Level
  en : Level
  d0 : Level
  d1 : Level
  d2 : Level
  d3 : Level
  d4 : Level
  d5 : Level
  d6 : Level
  d7 : Level
  n0 : Level
  n1 : Level
  n2 : Level
  n3 : Level
  deriving DecidableEq, Repr

/-- Every pin `X`: not driven since the block was constructed (00_scope.md R15; 10_state.md R37). -/
def Pins.allX : Pins := ⟨.X, .X, .X, .X, .X, .X, .X, .X, .X, .X, .X, .X, .X, .X⟩

/-- The named waits of 00_scope.md R6 and R7 (70_reset_and_hazards.md R260). -/
inductive Duration where
  | powerOn
  | initLong
  | initShort
  | cmd
  | clear
  | home
  | enPw
  | post
  deriving DecidableEq, Repr

/-- An action (00_scope.md R9). -/
inductive Action where
  | drive (p : Pin) (lvl : Drv)
  | i2cTx (addr : Addr7) (byte : Byte)
  | wait (t : Duration)
  | setEmr (v : BitVec 2)
  | setDmr (v : BitVec 3)
  deriving DecidableEq, Repr

/-- An executed action with its outcome: an entry of the trace (00_scope.md R11; 41_transport.md R111). -/
structure Event where
  action : Action
  outcome : Answer
  deriving DecidableEq, Repr

/-- The state. The first group is the tuple of 10_state.md R20; `params` are the parameters of 00_scope.md R7 (no step writes
them); `trace` and `responses` are the observation of R11; the last group is the model's own: inputs and the host's side. -/
structure State where
  /-- `LIFE`, 10_state.md R21 -/
  life : Life
  /-- `TSEL`, R22 -/
  tsel : XVal Transport
  /-- `I2C_ADDR`, R35 -/
  i2cAddr : XVal Addr7
  /-- `EMR`, R28 -/
  emr : XVal (BitVec 2)
  /-- `DMR`, R31 -/
  dmr : XVal (BitVec 3)
  /-- the pin levels, R36 and R37 -/
  pins : Pins
  /-- `OUT`, R38 -/
  out : XVal Byte
  /-- `BUSY`, R25 -/
  busy : Bool
  /-- `pc`, R24 -/
  pc : Nat
  /-- `A`, R24 -/
  acts : List Action
  /-- `RESP`, R26 -/
  resp : Resp
  /-- the parameters, 00_scope.md R7 -/
  params : Params
  /-- the trace, 00_scope.md R11 -/
  trace : List Event
  /-- the sequence of responses, R11 -/
  responses : List Resp
  /-- the environment's scripted answers, oldest first (log 1) -/
  env : List Answer
  /-- how many answers were drawn (log 1) -/
  draws : Nat
  /-- a primitive never returned, 60_exceptions.md R213 (log 6) -/
  hung : Bool
  /-- the host's lines still to be issued, 30_encoding.md R83 and R84 (log 5) -/
  program : List HostLine
  /-- the bytes a running pseudo-instruction still has to issue, 42_controller_ops.md R165 (log 5) -/
  pending : List Byte
  /-- what the host was told per line of its program, R165 (log 5) -/
  results : List Resp
  /-- bus words handed to the transport on their own (log 8) -/
  busPort : List BusLine
  deriving DecidableEq, Repr

/-- Why the machine is stuck. -/
inductive Fault where
  /-- Raised by `step` alone, in a state whose primitive at `pc` never returned: no step is enabled and the run is not final
  (60_exceptions.md R213; 93_implementation_defined.md U3). Safe: the block does nothing more. -/
  | hung
  deriving DecidableEq, Repr

/-- Why a request is refused: no action, no change of state, no response, and the run is marked refused (30_encoding.md R78). -/
inductive Refusal where
  /-- Raised by an arm of `exec` whose instruction has no meaning yet. No arm does so. Safe. -/
  | notModelled (mnemonic : String)
  /-- Raised by `step` on a line that decodes to nothing (30_encoding.md R78). Safe: the spec refuses it. -/
  | undecodable (e : DecodeError)
  /-- Raised by a host operation while `LIFE` is UNBUILT or ABSENT (42_controller_ops.md R150 (a)). Safe: the spec refuses it. -/
  | noInstance
  /-- Raised by a request while one is running: `LIFE = INIT` or `BUSY = 1` (42_controller_ops.md R150 (b); 43_init_sequencer.md
  R190). Safe: the host never does so. -/
  | requestInProgress
  /-- Raised by a construction unless `LIFE` is UNBUILT (43_init_sequencer.md R190). Safe: the spec refuses it. -/
  | alreadyConstructed
  /-- Raised by a bus word or an init literal while no request is running: the block emits a bus word only as part of a request's
  expansion (00_scope.md R9; log 8). Safe. -/
  | noRequestRunning
  /-- Raised by an init literal outside the init path that sends it (30_encoding.md R81; log 8). Safe. -/
  | notInitPath
  deriving DecidableEq, Repr

/-- The launch premise (70_reset_and_hazards.md R243) and the column "before construction" of 10_state.md R41, with the default
parameters of 00_scope.md R7 and no request in flight. -/
def State.reset : State where
  life := .unbuilt
  tsel := .x
  i2cAddr := .x
  emr := .x
  dmr := .x
  pins := .allX
  out := Params.default.expReset
  busy := false
  pc := 0
  acts := []
  resp := .none
  params := .default
  trace := []
  responses := []
  env := []
  draws := 0
  hung := false
  program := []
  pending := []
  results := []
  busPort := []

end Sys2Proof.Machine
end

