-- ==== Sys2Proof/Machine/Operands.lean ====
section
/-! DEFINITION. Machine/Operands.lean: every operand form: the fields of EMR and DMR (10_state.md R28, R31), the encoders
(40_encoders.md R100 to R106), the fixed bytes (R104, R105), the narrowing of characters (42_controller_ops.md R164, R166) and the
bounds of the named waits (00_scope.md R6, R7). -/

namespace Sys2Proof.Machine

/-! ## The shadow registers' fields -/

/-- `EMR` from its fields: MD is bit 1, DS bit 0 (10_state.md R28). -/
def emrOf (md : MoveDirection) (ds : OnOff) : BitVec 2 := md.bit ++ ds.bit

/-- `EMR.MD` (10_state.md R28). -/
def emrMd (v : BitVec 2) : MoveDirection := moveOf (v.getLsbD 1)

/-- `EMR.DS` (10_state.md R28). -/
def emrDs (v : BitVec 2) : OnOff := onOffOf (v.getLsbD 0)

/-- `DMR` from its fields: DISP is bit 2, CUR bit 1, BLINK bit 0 (10_state.md R31). -/
def dmrOf (disp cur blink : OnOff) : BitVec 3 := disp.bit ++ cur.bit ++ blink.bit

/-- `DMR.DISP` (10_state.md R31). -/
def dmrDisp (v : BitVec 3) : OnOff := onOffOf (v.getLsbD 2)

/-- `DMR.CUR` (10_state.md R31). -/
def dmrCur (v : BitVec 3) : OnOff := onOffOf (v.getLsbD 1)

/-- `DMR.BLINK` (10_state.md R31). -/
def dmrBlink (v : BitVec 3) : OnOff := onOffOf (v.getLsbD 0)

/-- The value construction gives `EMR`: increment, no shift (10_state.md R29). -/
def emrAtConstruction : BitVec 2 := 0b10#2

/-- The value construction gives `DMR`: display On, cursor On, blink On (10_state.md R32). -/
def dmrAtConstruction : BitVec 3 := 0b111#3

/-! ## Reading a register; one with no value reads as a free value (log 3) -/

/-- `TSEL` as the dispatcher reads it (41_transport.md R128). -/
def readTsel (s : State) : Transport :=
  match s.tsel with
  | .val t => t
  | .x => Config.freeTransport s.draws

/-- `I2C_ADDR` as the I2C transport reads it (41_transport.md R122). -/
def readAddr (s : State) : Addr7 :=
  match s.i2cAddr with
  | .val a => a
  | .x => Config.freeAddr s.draws

/-- `EMR` as a setter reads it (10_state.md R30). -/
def readEmr (s : State) : BitVec 2 :=
  match s.emr with
  | .val v => v
  | .x => Config.freeEmr s.draws

/-- `DMR` as a setter reads it (10_state.md R33). -/
def readDmr (s : State) : BitVec 3 :=
  match s.dmr with
  | .val v => v
  | .x => Config.freeDmr s.draws

/-! ## The encoders -/

/-- ENC_ENTRY: `0x04 | (MD << 1) | DS` (40_encoders.md R100; 30_encoding.md R74). -/
def encEntry (v : BitVec 2) : Byte :=
  0x04#8 ||| (if v.getLsbD 1 then 0x02#8 else 0) ||| (if v.getLsbD 0 then 0x01#8 else 0)

/-- ENC_DISPCTL: `0x08 | (DISP << 2) | (CUR << 1) | BLINK` (40_encoders.md R101; 30_encoding.md R74). -/
def encDispctl (v : BitVec 3) : Byte :=
  0x08#8 ||| (if v.getLsbD 2 then 0x04#8 else 0) ||| (if v.getLsbD 1 then 0x02#8 else 0)
    ||| (if v.getLsbD 0 then 0x01#8 else 0)

/-- ENC_SETDDRAM: `0x80 | (p & 0x7F)`; bit 7 of the position is dropped (40_encoders.md R102). -/
def encSetddram (p : Byte) : Byte := 0x80#8 ||| (p &&& 0x7F#8)

/-- ENC_SHIFT: `base | bits` (40_encoders.md R103). -/
def encShift (tgt : ShiftTarget) (dir : ShiftDirection) : Byte :=
  (match tgt with
    | .display => 0x18#8
    | .cursor => 0x10#8) |||
  (match dir with
    | .right => 0x04#8
    | .left => 0x00#8)

/-- CLEAR (40_encoders.md R104). -/
def CLEAR : Byte := 0x01#8

/-- HOME (R104). -/
def HOME : Byte := 0x02#8

/-- INIT4_A (40_encoders.md R105). -/
def INIT4_A : Byte := 0x33#8

/-- INIT4_B (R105). -/
def INIT4_B : Byte := 0x32#8

/-- FS4 (R105). -/
def FS4 : Byte := 0x28#8

/-- INIT8_A (R105). -/
def INIT8_A : Byte := 0x30#8

/-- FS8 (R105). -/
def FS8 : Byte := 0x38#8

/-- DC_INIT (R105). -/
def DC_INIT : Byte := 0x0E#8

/-- EM_INIT8 (R105). -/
def EM_INIT8 : Byte := 0x07#8

/-- DDRAM0 (R105). -/
def DDRAM0 : Byte := 0x80#8

/-! ## Characters -/

/-- The byte `write_char` sends: the low 8 bits of the scalar value (42_controller_ops.md R164). -/
def lowByte (c : Scalar) : Byte := c.extractLsb' 0 8

/-- The UTF-8 bytes of one scalar value (42_controller_ops.md R166; the encoding itself is PRESUMED, log 9). -/
def utf8Char (c : Scalar) : List Byte :=
  if c.toNat < 0x80 then [c.extractLsb' 0 8]
  else if c.toNat < 0x800 then
    [0b110#3 ++ c.extractLsb' 6 5, 0b10#2 ++ c.extractLsb' 0 6]
  else if c.toNat < 0x10000 then
    [0b1110#4 ++ c.extractLsb' 12 4, 0b10#2 ++ c.extractLsb' 6 6, 0b10#2 ++ c.extractLsb' 0 6]
  else
    [0b11110#5 ++ c.extractLsb' 18 3, 0b10#2 ++ c.extractLsb' 12 6, 0b10#2 ++ c.extractLsb' 6 6,
      0b10#2 ++ c.extractLsb' 0 6]

/-- `utf8(s)` (42_controller_ops.md R166). -/
def utf8 (s : List Scalar) : List Byte := s.flatMap utf8Char

/-! ## Waits and responses as numbers -/

/-- The lower bound of a named wait, in µs: fixed by 00_scope.md R6 or a parameter of R7; `.x` where none is given. -/
def waitBound (p : Params) : Duration → XVal Nat
  | .powerOn => .val 15000
  | .initLong => .val 5000
  | .initShort => .val 100
  | .cmd => .val 100
  | .clear => .val p.tClear
  | .home => .val p.tHome
  | .enPw => p.tEnPw
  | .post => p.tPost

/-- The response codes OK = 0 and ERR = 1 (60_exceptions.md R210); NONE is no response. -/
def respCode : Resp → Option Nat
  | .none => Option.none
  | .ok => some 0
  | .err => some 1

end Sys2Proof.Machine
end

