-- ==== Sys2Proof/Machine/Flags.lean ====
section
/-! DEFINITION. Machine/Flags.lean: the block has no condition codes and no status flags (10_state.md R27). Its one tag is
`is_data`, bit 8 of a bus word (30_encoding.md R70), and its one effect is the level of RS. -/

namespace Sys2Proof.Machine

/-- A bus word `RS ‖ B` (30_encoding.md R70). -/
def busWord (isData : Bool) (b : Byte) : BusWord := BitVec.ofBool isData ++ b

/-- The tag `is_data` of a bus word: `W[8]` (30_encoding.md R70; 10_state.md R27). -/
def isData (w : BusWord) : Bool := w.getLsbD 8

/-- The instruction byte of a bus word: `W[7:0]` (30_encoding.md R70). -/
def busByte (w : BusWord) : Byte := w.extractLsb' 0 8

/-- The level a bit is driven to: 1 is H, 0 is L (41_transport.md R116, R119). -/
def drv (b : Bool) : Drv := if b then .H else .L

/-- The level a driven pin then holds. -/
def Drv.level : Drv → Level
  | .L => .L
  | .H => .H

/-- The level a known bit carries (41_transport.md R126). -/
def bitLevel (b : Bool) : Level := if b then .H else .L

end Sys2Proof.Machine
end

