-- ==== Sys2Proof/Machine/Transport.lean ====
section
/-! DEFINITION. Machine/Transport.lean: the action list each transport adds to a request's expansion (41_transport.md R110 to R124)
and an expansion before its bus words are expanded. -/

namespace Sys2Proof.Machine

/-- The enable pulse of the parallel transports (41_transport.md R115). -/
def pulse : List Action := [.drive .en .H, .wait .enPw, .drive .en .L, .wait .post]

/-- Register-select back to L after a data write (41_transport.md R116, R119). -/
def dropRs (d : Bool) : List Action := if d then [.drive .rs .L] else []

/-- `P8Write(b, d)` (41_transport.md R116). -/
def p8Write (b : Byte) (d : Bool) : List Action :=
  [.drive .d0 (drv (b.getLsbD 0)), .drive .d1 (drv (b.getLsbD 1)), .drive .d2 (drv (b.getLsbD 2)),
    .drive .d3 (drv (b.getLsbD 3)), .drive .d4 (drv (b.getLsbD 4)), .drive .d5 (drv (b.getLsbD 5)),
    .drive .d6 (drv (b.getLsbD 6)), .drive .d7 (drv (b.getLsbD 7)), .drive .rs (drv d)]
    ++ pulse ++ dropRs d

/-- `Nib4(n)` (41_transport.md R117). -/
def nib4 (n : Nibble) : List Action :=
  [.drive .n0 (drv (n.getLsbD 0)), .drive .n1 (drv (n.getLsbD 1)), .drive .n2 (drv (n.getLsbD 2)),
    .drive .n3 (drv (n.getLsbD 3))]

/-- The upper nibble `B[7:4]` (30_encoding.md R75). -/
def upperNibble (b : Byte) : Nibble := b.extractLsb' 4 4

/-- The lower nibble `B[3:0]` (30_encoding.md R75). -/
def lowerNibble (b : Byte) : Nibble := b.extractLsb' 0 4

/-- `P4Write(b, d)` (41_transport.md R119): the upper nibble first. -/
def p4Write (b : Byte) (d : Bool) : List Action :=
  .drive .rs (drv d) :: nib4 (upperNibble b) ++ pulse ++ nib4 (lowerNibble b) ++ pulse ++ dropRs d

/-- A byte with one bit at place `k`. -/
def bitAt (k : Fin 8) (v : Bool) : Byte := if v then 1#8 <<< k.val else 0

/-- `Payload(n, rs, en)` (41_transport.md R121): each line's bit at its place in `EXP_MAP`, RW at 0, BL constant. -/
def payload (p : Params) (n : Nibble) (rs en : Bool) : Byte :=
  bitAt p.expMap.rs rs ||| bitAt p.expMap.rw false ||| bitAt p.expMap.en en ||| bitAt p.expMap.bl p.bl
    ||| bitAt p.expMap.n0 (n.getLsbD 0) ||| bitAt p.expMap.n1 (n.getLsbD 1)
    ||| bitAt p.expMap.n2 (n.getLsbD 2) ||| bitAt p.expMap.n3 (n.getLsbD 3)

/-- `I2CNib(n, d)` (41_transport.md R122). -/
def i2cNib (p : Params) (a : Addr7) (n : Nibble) (d : Bool) : List Action :=
  (match p.nibbleSeq with
    | .threeByte => [.i2cTx a (payload p n d false)]
    | .twoByte => []) ++
  [.i2cTx a (payload p n d true), .wait .enPw, .i2cTx a (payload p n d false), .wait .post]

/-- `I2CWrite(b, d)` (41_transport.md R123). -/
def i2cWrite (p : Params) (a : Addr7) (b : Byte) (d : Bool) : List Action :=
  i2cNib p a (upperNibble b) d ++ i2cNib p a (lowerNibble b) d
    ++ (if d && p.rsTrailer then [.i2cTx a (payload p (lowerNibble b) false false)] else [])

/-- `BusWrite(b, d)` for the bus word `d ‖ b`: the list of the transport selected (41_transport.md R110, R128). -/
def busWrite (p : Params) (t : Transport) (a : Addr7) (w : BusWord) : List Action :=
  match t with
  | .p8 => p8Write (busByte w) (isData w)
  | .p4 => p4Write (busByte w) (isData w)
  | .i2c => i2cWrite p a (busByte w) (isData w)

/-- An item of an expansion before the transport's part is filled in: a shadow write, a bus word, or a wait. -/
inductive Micro where
  | setEmr (v : BitVec 2)
  | setDmr (v : BitVec 3)
  | word (w : BusWord)
  | wait (t : Duration)
  deriving DecidableEq, Repr

/-- The actions of an item; a bus word is the transport's list (41_transport.md's opening). -/
def microActions (p : Params) (t : Transport) (a : Addr7) : Micro → List Action
  | .setEmr v => [.setEmr v]
  | .setDmr v => [.setDmr v]
  | .word w => busWrite p t a w
  | .wait d => [.wait d]

/-- An action list `A` (00_scope.md R9). -/
def expandMicros (p : Params) (t : Transport) (a : Addr7) (ms : List Micro) : List Action :=
  ms.flatMap (microActions p t a)

/-- The bus words an expansion emits, in order (95_test_vectors.md's notation). -/
def wordsOf (ms : List Micro) : List BusWord :=
  ms.filterMap fun
    | .word w => some w
    | .setEmr _ => none
    | .setDmr _ => none
    | .wait _ => none

/-- `Cmd(b, t)` (42_controller_ops.md R151). -/
def cmd (b : Byte) (t : Duration) : List Micro := [.word (busWord false b), .wait t]

/-- `Dat(b)` (42_controller_ops.md R151). -/
def dat (b : Byte) : List Micro := [.word (busWord true b), .wait .cmd]

/-! ## Totals of 70_reset_and_hazards.md R260 -/

/-- The sum of two bounds, unknown where one is. -/
def addBound : XVal Nat → XVal Nat → XVal Nat
  | .val a, .val b => .val (a + b)
  | .val _, .x => .x
  | .x, _ => .x

/-- The minimum waiting of an action list: the sum of the bounds of its waits (70_reset_and_hazards.md R260). -/
def totalWait (p : Params) : List Action → XVal Nat
  | [] => .val 0
  | .wait t :: as => addBound (waitBound p t) (totalWait p as)
  | .drive _ _ :: as => totalWait p as
  | .i2cTx _ _ :: as => totalWait p as
  | .setEmr _ :: as => totalWait p as
  | .setDmr _ :: as => totalWait p as

end Sys2Proof.Machine
end

