-- ==== Sys2Proof/Machine/Ops.lean ====
section
/-! DEFINITION. Machine/Ops.lean: the named operations over the state: pins and OUT, the environment's answers, one action, the error
entry (60_exceptions.md R214), the end of a request (42_controller_ops.md R150; 43_init_sequencer.md R196), and the acceptance of
operations, constructions and bus words. The block has no memory (20_memory.md R50). -/

namespace Sys2Proof.Machine

/-! ## Pins -/

/-- The level of a pin (10_state.md R37). -/
def Pins.get (ps : Pins) : Pin → Level
  | .rs => ps.rs
  | .en => ps.en
  | .d0 => ps.d0
  | .d1 => ps.d1
  | .d2 => ps.d2
  | .d3 => ps.d3
  | .d4 => ps.d4
  | .d5 => ps.d5
  | .d6 => ps.d6
  | .d7 => ps.d7
  | .n0 => ps.n0
  | .n1 => ps.n1
  | .n2 => ps.n2
  | .n3 => ps.n3

/-- `level(p) <- lvl` (41_transport.md R111). -/
def Pins.set (ps : Pins) (p : Pin) (l : Level) : Pins :=
  match p with
  | .rs => { ps with rs := l }
  | .en => { ps with en := l }
  | .d0 => { ps with d0 := l }
  | .d1 => { ps with d1 := l }
  | .d2 => { ps with d2 := l }
  | .d3 => { ps with d3 := l }
  | .d4 => { ps with d4 := l }
  | .d5 => { ps with d5 := l }
  | .d6 => { ps with d6 := l }
  | .d7 => { ps with d7 := l }
  | .n0 => { ps with n0 := l }
  | .n1 => { ps with n1 := l }
  | .n2 => { ps with n2 := l }
  | .n3 => { ps with n3 := l }

/-- The pins a transport owns (10_state.md R36). -/
def ownedPins : Transport → List Pin
  | .p8 => [.rs, .en, .d0, .d1, .d2, .d3, .d4, .d5, .d6, .d7]
  | .p4 => [.rs, .en, .n0, .n1, .n2, .n3]
  | .i2c => []

/-! ## The environment -/

/-- The environment's next answer: the next scripted one, and beyond the script a free value (00_scope.md R10; log 1). -/
def nextAnswer (s : State) : Answer :=
  match s.env with
  | a :: _ => a
  | [] => Config.answer s.draws

/-- The expander acknowledges the address (41_transport.md R125); an address that is not known may match. -/
def acknowledges (p : Params) (a : Addr7) : Bool :=
  match p.expAddr with
  | .val e => decide (e = a)
  | .x => true

/-- The answer an action gets. A transaction to an address the expander does not have is not acknowledged, so it never answers Ok
(41_transport.md R125; log 11). -/
def possibleAnswer (p : Params) (a : Action) (ans : Answer) : Answer :=
  match a with
  | .i2cTx addr _ => if ans = .ok ∧ acknowledges p addr = false then .err false else ans
  | .drive _ _ => ans
  | .wait _ => ans
  | .setEmr _ => ans
  | .setDmr _ => ans

/-- `Drive` and `I2CTx` are fallible; a wait and a shadow write always complete (00_scope.md R9, R10). -/
def fallible : Action → Bool
  | .drive _ _ => true
  | .i2cTx _ _ => true
  | .wait _ => false
  | .setEmr _ => false
  | .setDmr _ => false

/-- The outcome of an action in a state. -/
def answerFor (s : State) (a : Action) : Answer := if fallible a then possibleAnswer s.params a (nextAnswer s) else .ok

/-- One answer drawn. -/
def drawn (s : State) : State := { s with env := s.env.tail, draws := s.draws + 1 }

/-- The state after the environment has answered an action: only a fallible one takes an answer. -/
def afterAnswer (s : State) (a : Action) : State := if fallible a then drawn s else s

/-! ## One action -/

/-- The effect of an action that takes effect (41_transport.md R111, R112, R113; 00_scope.md R9). -/
def applyAction (s : State) : Action → State
  | .drive p lvl => { s with pins := s.pins.set p lvl.level }
  | .i2cTx _ byte => { s with out := .val byte }
  | .wait _ => s
  | .setEmr v => { s with emr := .val v }
  | .setDmr v => { s with dmr := .val v }

/-- The trace with one more event (00_scope.md R11). -/
def recordEvent (s : State) (a : Action) (o : Answer) : State := { s with trace := s.trace ++ [⟨a, o⟩] }

/-- `LIFE` when a request ends: an init sequence that succeeds gives READY (43_init_sequencer.md R196), one that fails gives ABSENT
(R197); a host operation leaves it (60_exceptions.md R215). -/
def lifeAtEnd (l : Life) (ok : Bool) : Life :=
  match l with
  | .init => if ok then .ready else .absent
  | .unbuilt => .unbuilt
  | .ready => .ready
  | .absent => .absent

/-- The block's end of a request (42_controller_ops.md R150; 43_init_sequencer.md R196, R197; 60_exceptions.md R214):
`RESP`, `BUSY <- 0`, `A <- []`, `pc <- 0` and `LIFE`. -/
def endRequest (s : State) (r : Resp) : State :=
  { s with
    resp := r
    busy := false
    acts := []
    pc := 0
    life := lifeAtEnd s.life (decide (r = .ok))
    responses := s.responses ++ [r] }

/-- The host gets a response: a pseudo-instruction goes on after OK and ends at the first ERR (42_controller_ops.md R165); a line of
the host's program is answered when nothing of it is left to issue. -/
def hostReceive (s : State) (r : Resp) : State :=
  match r with
  | .err => { s with pending := [], results := s.results ++ [.err] }
  | .ok => if s.pending.isEmpty then { s with results := s.results ++ [.ok] } else s
  | .none => s

/-- A request ends and its response reaches the host. -/
def finish (s : State) (r : Resp) : State := hostReceive (endRequest s r) r

/-- An action completes with Ok: it takes effect and `pc <- pc + 1` (00_scope.md R10). -/
def completeAction (s : State) (a : Action) : State :=
  recordEvent { applyAction s a with pc := s.pc + 1 } a .ok

/-- ERROR ENTRY (60_exceptions.md R214): the failed action's target holds the old or the new value, by the draw `took`
(41_transport.md R111, R112); the rest of the list is dropped and the request ends with ERR. -/
def errorEntry (s : State) (a : Action) (took : Bool) : State :=
  finish (recordEvent (if took then applyAction s a else s) a (.err took)) .err

/-- A primitive never returns (60_exceptions.md R213): `BUSY` stays 1 and there is no response. -/
def hang (s : State) (a : Action) : State := { recordEvent s a .hang with hung := true }

/-- The action `a` runs and gets its answer (00_scope.md R10). -/
def runOne (s : State) (a : Action) : State :=
  match answerFor s a with
  | .ok => completeAction (afterAnswer s a) a
  | .err took => errorEntry (afterAnswer s a) a took
  | .hang => hang (afterAnswer s a) a

/-- One step of the running request: the action at `pc`, or, when `pc` has reached the length of `A`, the end with OK
(00_scope.md R10). -/
def runAction (s : State) : State :=
  match s.acts[s.pc]? with
  | some a => runOne s a
  | none => finish s .ok

/-! ## Acceptance -/

/-- `A` for an expansion in a state: the transport's lists filled in (00_scope.md R9). -/
def expand (s : State) (ms : List Micro) : List Action := expandMicros s.params (readTsel s) (readAddr s) ms

/-- A request starts: `BUSY <- 1; RESP <- NONE; A <- …; pc <- 0` (42_controller_ops.md R150). -/
def startRequest (s : State) (as : List Action) : State := { s with busy := true, resp := .none, acts := as, pc := 0 }

/-- Accepting a host operation (42_controller_ops.md R150): only when `LIFE = READY` and `BUSY = 0`. -/
def acceptOp (ms : List Micro) (s : State) : Host.Outcome State Fault Refusal :=
  match s.life with
  | .unbuilt => .refused .noInstance
  | .absent => .refused .noInstance
  | .init => .refused .requestInProgress
  | .ready => if s.busy then .refused .requestInProgress else .next (startRequest s (expand s ms))

/-- The registers construction writes (43_init_sequencer.md R190). -/
def constructed (t : Transport) (addr : XVal Addr7) (s : State) : State :=
  { s with
    tsel := .val t
    i2cAddr := (match addr with
      | .val a => .val a
      | .x => s.i2cAddr)
    emr := .val emrAtConstruction
    dmr := .val dmrAtConstruction
    life := .init }

/-- Accepting a construction (43_init_sequencer.md R190): only when `LIFE = UNBUILT` and `BUSY = 0`. The init list is expanded
in the state construction has just written (R199). -/
def acceptConstruction (t : Transport) (addr : XVal Addr7) (initSeq : BitVec 2 → List Micro) (s : State) :
    Host.Outcome State Fault Refusal :=
  match s.life with
  | .unbuilt =>
    if s.busy then .refused .requestInProgress
    else
      let c := constructed t addr s
      .next (startRequest c (expand c (initSeq (readEmr c))))
  | .init => .refused .alreadyConstructed
  | .ready => .refused .alreadyConstructed
  | .absent => .refused .alreadyConstructed

/-- A request is running on a transport that exists. -/
def requestRunning (s : State) : Bool :=
  s.busy &&
  match s.life with
  | .init => true
  | .ready => true
  | .unbuilt => false
  | .absent => false

/-- The action list of a bus word on the transport a state has: `BusWrite(b, d)` (41_transport.md R110). -/
def wordActions (s : State) (w : BusWord) : List Action := busWrite s.params (readTsel s) (readAddr s) w

/-- A bus word is handed to the transport: the transport adds its action list to the running request's expansion
(41_transport.md's opening, R110; log 8). -/
def issueWord (w : BusWord) (s : State) : Host.Outcome State Fault Refusal :=
  if requestRunning s then .next { s with acts := s.acts ++ wordActions s w }
  else .refused .noRequestRunning

/-- The two init paths (43_init_sequencer.md R193). -/
def onPath8 : Transport → Bool
  | .p8 => true
  | .p4 => false
  | .i2c => false

/-- Whether a literal is sent on the init path of a transport: on the 8-bit path, on the 4-bit path, or both (30_encoding.md R81). -/
def sentOn (path8 path4 : Bool) (t : Transport) : Bool := if onPath8 t then path8 else path4

/-- An init literal is handed to the transport: only within an init sequence whose path sends it (30_encoding.md R81; log 8). -/
def issueInit (path8 path4 : Bool) (b : Byte) (s : State) : Host.Outcome State Fault Refusal :=
  if s.life = .init ∧ sentOn path8 path4 (readTsel s) = true then issueWord (busWord false b) s
  else .refused .notInitPath

end Sys2Proof.Machine
end

