-- ==== Sys2Proof/Machine/BusWords.lean ====
section
/-! DEFINITION. Machine/BusWords.lean: the bus words (30_encoding.md R72, R73): each is the transport operation BusWrite of its byte
and tag (41_transport.md R110), within the running request. -/

namespace Sys2Proof.Machine

/-- CLEAR, 0x001 (30_encoding.md R72; 40_encoders.md R104). -/
def execBusClear (s : State) : Host.Outcome State Fault Refusal := issueWord (busWord false CLEAR) s

/-- HOME, 0x002 (R72; R104). -/
def execBusHome (s : State) : Host.Outcome State Fault Refusal := issueWord (busWord false HOME) s

/-- ENTRY (R72; 40_encoders.md R100). -/
def execBusEntry (md : MoveDirection) (ds : OnOff) (s : State) : Host.Outcome State Fault Refusal :=
  issueWord (busWord false (encEntry (emrOf md ds))) s

/-- DISPCTL (R72; R101). -/
def execBusDispctl (disp cur blink : OnOff) (s : State) : Host.Outcome State Fault Refusal :=
  issueWord (busWord false (encDispctl (dmrOf disp cur blink))) s

/-- SHIFT (R72; R103). -/
def execBusShift (tgt : ShiftTarget) (dir : ShiftDirection) (s : State) : Host.Outcome State Fault Refusal :=
  issueWord (busWord false (encShift tgt dir)) s

/-- SETDDRAM (R72; R102). -/
def execBusSetddram (addr : Addr7) (s : State) : Host.Outcome State Fault Refusal :=
  issueWord (busWord false (encSetddram (addr.setWidth 8))) s

/-- DATA (30_encoding.md R73). -/
def execBusData (b : Byte) (s : State) : Host.Outcome State Fault Refusal := issueWord (busWord true b) s

end Sys2Proof.Machine
end

