-- ==== Sys2Proof/Machine/Construct.lean ====
section
/-! DEFINITION. Machine/Construct.lean: the initialization sequences (43_init_sequencer.md R191, R192) and the constructions
(R190). -/

namespace Sys2Proof.Machine

/-- `W(b)`: a command write (43_init_sequencer.md R191, R194); no `T_CMD` wait is added (R195). -/
def initWrite (b : Byte) : Micro := .word (busWord false b)

/-- The 4-bit path, steps 0 to 14 (43_init_sequencer.md R191). -/
def initSeq4 (emr : BitVec 2) : List Micro :=
  [.wait .powerOn,
    initWrite INIT4_A, .wait .initLong,
    initWrite INIT4_B, .wait .initShort,
    initWrite FS4, .wait .initShort,
    initWrite DC_INIT, .wait .initShort,
    initWrite CLEAR, .wait .initShort,
    initWrite (encEntry emr), .wait .initShort,
    initWrite DDRAM0, .wait .initShort]

/-- The 8-bit path, steps 0 to 12 (43_init_sequencer.md R192). -/
def initSeq8 (emr : BitVec 2) : List Micro :=
  [.wait .powerOn,
    initWrite INIT8_A, .wait .initLong,
    initWrite FS8, .wait .initShort,
    initWrite DC_INIT, .wait .initShort,
    initWrite CLEAR, .wait .initShort,
    initWrite EM_INIT8, .wait .initShort,
    initWrite (encEntry emr), .wait .initShort]

/-- Path selection (43_init_sequencer.md R193). -/
def initSeq (t : Transport) (emr : BitVec 2) : List Micro := if onPath8 t then initSeq8 emr else initSeq4 emr

/-- `new_8bit` (R190). -/
def execNew8bit (s : State) : Host.Outcome State Fault Refusal := acceptConstruction .p8 .x (initSeq .p8) s

/-- `new_4bit` (R190). -/
def execNew4bit (s : State) : Host.Outcome State Fault Refusal := acceptConstruction .p4 .x (initSeq .p4) s

/-- `new_i2c` (R190). -/
def execNewI2c (address : Addr7) (s : State) : Host.Outcome State Fault Refusal :=
  acceptConstruction .i2c (.val address) (initSeq .i2c) s

end Sys2Proof.Machine
end

