-- ==== Sys2Proof/Machine/HostOps.lean ====
section
/-! DEFINITION. Machine/HostOps.lean: the host operations (42_controller_ops.md R152 to R163): each is accepted with its expansion. -/

namespace Sys2Proof.Machine

/-- `clear` (R153). -/
def execClear (s : State) : Host.Outcome State Fault Refusal := acceptOp (cmd CLEAR .clear) s

/-- `reset`, return home (R152). -/
def execReset (s : State) : Host.Outcome State Fault Refusal := acceptOp (cmd HOME .home) s

/-- A setter of `DMR`: store first, then send (R154 to R157, R169). -/
def storeDmr (v : BitVec 3) : List Micro := .setDmr v :: cmd (encDispctl v) .cmd

/-- A setter of `EMR`: store first, then send (R158, R159, R169). -/
def storeEmr (v : BitVec 2) : List Micro := .setEmr v :: cmd (encEntry v) .cmd

/-- `set_display_mode` (R154): all three fields. -/
def execSetDisplayMode (display cursor blink : OnOff) (s : State) : Host.Outcome State Fault Refusal :=
  acceptOp (storeDmr (dmrOf display cursor blink)) s

/-- `set_display` (R155): the other two fields as they are. -/
def execSetDisplay (v : OnOff) (s : State) : Host.Outcome State Fault Refusal :=
  acceptOp (storeDmr (dmrOf v (dmrCur (readDmr s)) (dmrBlink (readDmr s)))) s

/-- `set_cursor_visibility` (R156). -/
def execSetCursorVisibility (v : OnOff) (s : State) : Host.Outcome State Fault Refusal :=
  acceptOp (storeDmr (dmrOf (dmrDisp (readDmr s)) v (dmrBlink (readDmr s)))) s

/-- `set_cursor_blink` (R157). -/
def execSetCursorBlink (v : OnOff) (s : State) : Host.Outcome State Fault Refusal :=
  acceptOp (storeDmr (dmrOf (dmrDisp (readDmr s)) (dmrCur (readDmr s)) v)) s

/-- `set_autoscroll` (R158). -/
def execSetAutoscroll (shift : OnOff) (s : State) : Host.Outcome State Fault Refusal :=
  acceptOp (storeEmr (emrOf (emrMd (readEmr s)) shift)) s

/-- `set_cursor_mode` (R159). -/
def execSetCursorMode (direction : MoveDirection) (s : State) : Host.Outcome State Fault Refusal :=
  acceptOp (storeEmr (emrOf direction (emrDs (readEmr s)))) s

/-- `set_cursor_pos` (R160). -/
def execSetCursorPos (position : Byte) (s : State) : Host.Outcome State Fault Refusal :=
  acceptOp (cmd (encSetddram position) .cmd) s

/-- `shift_cursor` (R161). -/
def execShiftCursor (direction : ShiftDirection) (s : State) : Host.Outcome State Fault Refusal :=
  acceptOp (cmd (encShift .cursor direction) .cmd) s

/-- `shift_display` (R162). -/
def execShiftDisplay (direction : ShiftDirection) (s : State) : Host.Outcome State Fault Refusal :=
  acceptOp (cmd (encShift .display direction) .cmd) s

/-- `write_byte` (R163). -/
def execWriteByte (b : Byte) (s : State) : Host.Outcome State Fault Refusal := acceptOp (dat b) s

end Sys2Proof.Machine
end

