-- ==== Sys2Proof/Machine/InitWords.lean ====
section
/-! DEFINITION. Machine/InitWords.lean: the init literals (30_encoding.md R81; 40_encoders.md R105): commands that only an init
sequence sends, each on its path. -/

namespace Sys2Proof.Machine

/-- 0x33, 4-bit path. -/
def execInit33 (s : State) : Host.Outcome State Fault Refusal := issueInit false true INIT4_A s

/-- 0x32, 4-bit path. -/
def execInit32 (s : State) : Host.Outcome State Fault Refusal := issueInit false true INIT4_B s

/-- 0x28, 4-bit path. -/
def execInit28 (s : State) : Host.Outcome State Fault Refusal := issueInit false true FS4 s

/-- 0x30, 8-bit path. -/
def execInit30 (s : State) : Host.Outcome State Fault Refusal := issueInit true false INIT8_A s

/-- 0x38, 8-bit path. -/
def execInit38 (s : State) : Host.Outcome State Fault Refusal := issueInit true false FS8 s

/-- 0x0E, both paths. -/
def execInit0E (s : State) : Host.Outcome State Fault Refusal := issueInit true true DC_INIT s

/-- 0x01, both paths. -/
def execInit01 (s : State) : Host.Outcome State Fault Refusal := issueInit true true CLEAR s

/-- 0x07, 8-bit path. -/
def execInit07 (s : State) : Host.Outcome State Fault Refusal := issueInit true false EM_INIT8 s

/-- 0x80, 4-bit path. -/
def execInit80 (s : State) : Host.Outcome State Fault Refusal := issueInit false true DDRAM0 s

end Sys2Proof.Machine
end

