-- ==== Sys2Proof/Machine/Pseudo.lean ====
section
/-! DEFINITION. Machine/Pseudo.lean: the pseudo-instructions, which the host expands into `write_byte` requests (30_encoding.md R84;
42_controller_ops.md R164 to R166). The first request is issued at once; the bytes still owed wait in `pending`. -/

namespace Sys2Proof.Machine

/-- A byte sequence issued one `write_byte` at a time; an empty one issues nothing and reports OK (42_controller_ops.md R165). -/
def issueBytes (seq : List Byte) (s : State) : Host.Outcome State Fault Refusal :=
  match seq with
  | [] => .next { s with results := s.results ++ [.ok] }
  | b :: rest => execWriteByte b { s with pending := rest }

/-- `write_char` (R164): `write_byte(c[7:0])`. -/
def execWriteChar (c : Scalar) (s : State) : Host.Outcome State Fault Refusal := execWriteByte (lowByte c) s

/-- `write_bytes` (R165). -/
def execWriteBytes (seq : List Byte) (s : State) : Host.Outcome State Fault Refusal := issueBytes seq s

/-- `write_str` (R166): `write_bytes(utf8(s))`. -/
def execWriteStr (str : List Scalar) (s : State) : Host.Outcome State Fault Refusal := issueBytes (utf8 str) s

end Sys2Proof.Machine
end

