-- ==== Sys2Proof/Machine/Dispatch.lean ====
section
/-! DEFINITION. Machine/Dispatch.lean: one arm per constructor of Instr. -/

namespace Sys2Proof.Machine

def exec (i : Instr) (s : State) : Host.Outcome State Fault Refusal :=
  match i with
  | .clear => Sys2Proof.Machine.execClear s
  | .reset => Sys2Proof.Machine.execReset s
  | .setDisplayMode display cursor blink => Sys2Proof.Machine.execSetDisplayMode display cursor blink s
  | .setDisplay v => Sys2Proof.Machine.execSetDisplay v s
  | .setCursorVisibility v => Sys2Proof.Machine.execSetCursorVisibility v s
  | .setCursorBlink v => Sys2Proof.Machine.execSetCursorBlink v s
  | .setAutoscroll shift => Sys2Proof.Machine.execSetAutoscroll shift s
  | .setCursorMode direction => Sys2Proof.Machine.execSetCursorMode direction s
  | .setCursorPos position => Sys2Proof.Machine.execSetCursorPos position s
  | .shiftCursor direction => Sys2Proof.Machine.execShiftCursor direction s
  | .shiftDisplay direction => Sys2Proof.Machine.execShiftDisplay direction s
  | .writeByte b => Sys2Proof.Machine.execWriteByte b s
  | .new8bit => Sys2Proof.Machine.execNew8bit s
  | .new4bit => Sys2Proof.Machine.execNew4bit s
  | .newI2c address => Sys2Proof.Machine.execNewI2c address s
  | .writeChar c => Sys2Proof.Machine.execWriteChar c s
  | .writeBytes seq => Sys2Proof.Machine.execWriteBytes seq s
  | .writeStr str => Sys2Proof.Machine.execWriteStr str s
  | .busClear => Sys2Proof.Machine.execBusClear s
  | .busHome => Sys2Proof.Machine.execBusHome s
  | .busEntry md ds => Sys2Proof.Machine.execBusEntry md ds s
  | .busDispctl disp cur blink => Sys2Proof.Machine.execBusDispctl disp cur blink s
  | .busShift tgt dir => Sys2Proof.Machine.execBusShift tgt dir s
  | .busSetddram addr => Sys2Proof.Machine.execBusSetddram addr s
  | .busData b => Sys2Proof.Machine.execBusData b s
  | .init33 => Sys2Proof.Machine.execInit33 s
  | .init32 => Sys2Proof.Machine.execInit32 s
  | .init28 => Sys2Proof.Machine.execInit28 s
  | .init30 => Sys2Proof.Machine.execInit30 s
  | .init38 => Sys2Proof.Machine.execInit38 s
  | .init0E => Sys2Proof.Machine.execInit0E s
  | .init01 => Sys2Proof.Machine.execInit01 s
  | .init07 => Sys2Proof.Machine.execInit07 s
  | .init80 => Sys2Proof.Machine.execInit80 s

end Sys2Proof.Machine
end

