-- ==== Sys2Proof/Machine/Fetch.lean ====
section
/-! DEFINITION. Machine/Fetch.lean: which move the machine makes next, and where an instruction's words are put to be fetched
next. -/

namespace Sys2Proof.Machine

/-- The moves of a step. -/
inductive Move where
  /-- run this instruction in this state (the line it came from taken) -/
  | instr (i : Instr) (s : State)
  /-- one action of the running request -/
  | action
  /-- the host has no further request (00_scope.md R12 (a)) -/
  | idle
  /-- a primitive never returned (R12 (c)) -/
  | stuck
  /-- a line that decodes to nothing -/
  | refuse (e : DecodeError)

/-- A decoded line, taken. -/
def moveOfLine (d : Except DecodeError Instr) (s : State) : Move :=
  match d with
  | .ok i => .instr i s
  | .error e => .refuse e

/-- While a request runs: a bus word waiting at the bus port is taken first (log 8), else the request goes on
(00_scope.md R10). A host request waits (60_exceptions.md R225). -/
def busyMove (s : State) : Move :=
  match s.busPort with
  | w :: rest => moveOfLine (decodeBusLine w) { s with busPort := rest }
  | [] => .action

/-- While none runs: the next byte of a pseudo-instruction (42_controller_ops.md R165), else the next line of the host's program
(30_encoding.md R83), else nothing. -/
def idleMove (s : State) : Move :=
  match s.pending with
  | b :: rest => .instr (.writeByte b) { s with pending := rest }
  | [] =>
    match s.program with
    | l :: rest => moveOfLine (decodeHost l) { s with program := rest }
    | [] => .idle

/-- The next move. -/
def nextMove (s : State) : Move := if s.hung then .stuck else if s.busy then busyMove s else idleMove s

/-! ## Placing an instruction to be fetched next (log 13) -/

/-- A value given where a register has none. -/
def orElse {α : Type} (v : XVal α) (d : α) : XVal α :=
  match v with
  | .val u => .val u
  | .x => .val d

/-- What an instance that exists holds (10_state.md R41, "at construction"): registers with no value get the construction's. -/
def withInstance (s : State) : State :=
  { s with
    tsel := orElse s.tsel .p8
    emr := orElse s.emr emrAtConstruction
    dmr := orElse s.dmr dmrAtConstruction }

/-- A state in which no request runs. -/
def withoutRequest (s : State) : State :=
  { s with hung := false, busy := false, acts := [], pc := 0, pending := [] }

/-- The state made ready for a host line: none running; UNBUILT for a construction, an instance that exists for any other. -/
def readyForHost (d : Except DecodeError Instr) (s : State) : State :=
  let s := withoutRequest s
  match d with
  | .ok i => if i.kind = .construction then { s with life := .unbuilt } else { withInstance s with life := .ready }
  | .error _ => s

/-- The transport on whose init path a literal stands: the one the state has, if the literal is sent on its path. -/
def initTransport (i : Except DecodeError Instr) (t : Transport) : Transport :=
  match i with
  | .ok .init30 => .p8
  | .ok .init38 => .p8
  | .ok .init07 => .p8
  | .ok .init33 => if onPath8 t then .p4 else t
  | .ok .init32 => if onPath8 t then .p4 else t
  | .ok .init28 => if onPath8 t then .p4 else t
  | .ok .init80 => if onPath8 t then .p4 else t
  | .ok _ => t
  | .error _ => t

/-- The state made ready for a bus word: a request running on a transport that exists. -/
def readyForBus (s : State) : State :=
  let s := { withInstance s with hung := false, busy := true }
  if requestRunning s then s else { s with life := .ready }

/-- The state made ready for an init literal: an init sequence running on its path. -/
def readyForInit (d : Except DecodeError Instr) (s : State) : State :=
  let s := readyForBus s
  { s with life := .init, tsel := .val (initTransport d (readTsel s)) }

/-- `s` with the line stored where the step fetches it next. -/
def placeLine (l : Line) (s : State) : State :=
  match l with
  | .host h => { readyForHost (decodeHost h) s with program := h :: s.program }
  | .bus (.bus w) => { readyForBus s with busPort := .bus w :: s.busPort }
  | .bus (.init w) => { readyForInit (decodeInit w) s with busPort := .init w :: s.busPort }

end Sys2Proof.Machine
end

