-- ==== Sys2Proof/Machine/Step.lean ====
section
/-! DEFINITION. Machine/Step.lean: one step of the machine (00_scope.md R10), and an instruction placed to be fetched next. -/

namespace Sys2Proof.Machine

/-- One step: an instruction that is fetched, one action of the running request, or nothing. -/
def step (s : State) : Host.Outcome State Fault Refusal :=
  match nextMove s with
  | .instr i t => exec i t
  | .action => .next (runAction s)
  | .idle => .next s
  | .stuck => .fault .hung
  | .refuse e => .refused (.undecodable e)

/-- `s` with the instruction of a word of spec/opcode_table.json placed where the next step fetches it (log 13). -/
def State.withFetchWord (s : State) (nbits w : Nat) : State := placeLine (tableLine nbits w) s

end Sys2Proof.Machine
end

