-- ==== Sys2Proof/Machine/Latch.lean ====
section
/-! DEFINITION. Machine/Latch.lean: the lines the LCD sees (41_transport.md R126) and the latch view (R127), a function of the
trace. -/

namespace Sys2Proof.Machine

/-- The lines a latch event is made of (41_transport.md R127): RS, E, and the data lines, the highest first: D7..D0 on P8, DB7..DB4 on P4 and I2C. -/
structure Lines where
  rs : Level
  e : Level
  data : List Level
  deriving DecidableEq, Repr

/-- A latch event (41_transport.md R127): the transfer `(RS, data)`. `certain` is false for a change of E from `X` to L, which
"might be a latch event or might not". A level `X` in it is any value. -/
structure Latch where
  rs : Level
  data : List Level
  certain : Bool
  deriving DecidableEq, Repr

/-- The line an expander pin carries (41_transport.md R125, R126). -/
def outLevel (o : XVal Byte) (k : Fin 8) : Level :=
  match o with
  | .val v => bitLevel (v.getLsbD k.val)
  | .x => .X

/-- The lines an expander drives at the LCD (41_transport.md R126): RS, R/W, E, the backlight control, and DB7..DB4. DB3..DB0 are
not driven. -/
structure ExpanderLines where
  rs : Level
  rw : Level
  e : Level
  backlight : Level
  db7 : Level
  db6 : Level
  db5 : Level
  db4 : Level
  deriving DecidableEq, Repr

/-- The expander-to-LCD wiring: each line is the bit of `OUT` at its place in `EXP_MAP`, DB(4+i) at that of N_i
(41_transport.md R126). -/
def expanderLines (p : Params) (o : XVal Byte) : ExpanderLines where
  rs := outLevel o p.expMap.rs
  rw := outLevel o p.expMap.rw
  e := outLevel o p.expMap.en
  backlight := outLevel o p.expMap.bl
  db7 := outLevel o p.expMap.n3
  db6 := outLevel o p.expMap.n2
  db5 := outLevel o p.expMap.n1
  db4 := outLevel o p.expMap.n0

/-- The lines of a latch event: the owned pins on P8 and P4 (41_transport.md R127), the expander's RS, E and DB7..DB4 on I2C
(R126). -/
def linesOf (p : Params) (t : Transport) (ps : Pins) (o : XVal Byte) : Lines :=
  match t with
  | .p8 => ⟨ps.rs, ps.en, [ps.d7, ps.d6, ps.d5, ps.d4, ps.d3, ps.d2, ps.d1, ps.d0]⟩
  | .p4 => ⟨ps.rs, ps.en, [ps.n3, ps.n2, ps.n1, ps.n0]⟩
  | .i2c =>
    let x := expanderLines p o
    ⟨x.rs, x.e, [x.db7, x.db6, x.db5, x.db4]⟩

/-- The LCD's lines in a state. -/
def lcdLines (s : State) : Lines := linesOf s.params (readTsel s) s.pins s.out

/-- A line at the moment E falls: one that changes in the same update is latched as any value (70_reset_and_hazards.md R253). -/
def settled (before after : Level) : Level := if before = after then after else .X

/-- The latch event of one change of the lines (41_transport.md R127). -/
def latchOf (before after : Lines) : List Latch :=
  match before.e, after.e with
  | .H, .L => [⟨settled before.rs after.rs, List.zipWith settled before.data after.data, true⟩]
  | .X, .L => [⟨settled before.rs after.rs, List.zipWith settled before.data after.data, false⟩]
  | .H, .H => []
  | .H, .X => []
  | .L, .L => []
  | .L, .H => []
  | .L, .X => []
  | .X, .H => []
  | .X, .X => []

/-- Whether an executed action took effect (00_scope.md R10; 41_transport.md R111, R112). -/
def tookEffect : Answer → Bool
  | .ok => true
  | .err took => took
  | .hang => false

/-- The pins after an event. -/
def pinsAfter (ps : Pins) (e : Event) : Pins :=
  match e.action with
  | .drive p lvl => if tookEffect e.outcome then ps.set p lvl.level else ps
  | .i2cTx _ _ => ps
  | .wait _ => ps
  | .setEmr _ => ps
  | .setDmr _ => ps

/-- `OUT` after an event. -/
def outAfter (o : XVal Byte) (e : Event) : XVal Byte :=
  match e.action with
  | .i2cTx _ v => if tookEffect e.outcome then .val v else o
  | .drive _ _ => o
  | .wait _ => o
  | .setEmr _ => o
  | .setDmr _ => o

/-- The latch events of a trace from given pins and `OUT`, in trace order (41_transport.md R127). -/
def latchesFrom (p : Params) (t : Transport) : Pins → XVal Byte → List Event → List Latch
  | _, _, [] => []
  | ps, o, e :: es =>
    latchOf (linesOf p t ps o) (linesOf p t (pinsAfter ps e) (outAfter o e))
      ++ latchesFrom p t (pinsAfter ps e) (outAfter o e) es

/-- The latch list of a run from reset: every pin `X` and `OUT = EXP_RESET` at its start (10_state.md R37, R38). -/
def latches (s : State) : List Latch := latchesFrom s.params (readTsel s) .allX s.params.expReset s.trace

/-- How the LCD pairs nibble transfers into bytes on a 4-bit bus: by counting them, upper first (20_memory.md R53, R55), from a point
where its phase is the block's and every event is certain. -/
def pairNibbles : List Latch → List (Latch × Latch)
  | u :: l :: ls => (u, l) :: pairNibbles ls
  | [_] => []
  | [] => []

/-- The LCD holds half a byte: its nibble phase is off (10_state.md R39 (a); 70_reset_and_hazards.md R248). -/
def halfByteHeld (ls : List Latch) : Bool := decide (ls.length % 2 = 1)

/-- The event of an action that completed. -/
def okEvent (a : Action) : Event := ⟨a, .ok⟩

end Sys2Proof.Machine
end

