-- ==== Sys2Proof/Safety.lean ====
section
/-! DEFINITION. Safety.lean: what counts as a legal state of the block, and the terms claims about runs use. -/

namespace Sys2Proof

open Machine

/-- An action the transport may run: it drives owned pins only (10_state.md R36) and sends to `I2C_ADDR` only (20_memory.md
R51 (b)). -/
def ownedAction (t : Transport) (addr : XVal Addr7) : Action → Bool
  | .drive p _ => decide (p ∈ ownedPins t)
  | .i2cTx a _ => decide (t = .i2c) && decide (addr = .val a)
  | .wait _ => true
  | .setEmr _ => true
  | .setDmr _ => true

/-- What an instance holds once construction has been accepted (10_state.md R41; 43_init_sequencer.md R190): values in TSEL, EMR and
DMR, and in I2C_ADDR exactly on I2C; pins it does not own at X, OUT untouched but on I2C; and only actions on its own pins or
address in `A`. -/
structure BuiltInv (s : State) (t : Transport) : Prop where
  tsel : s.tsel = .val t
  emr : ∃ v, s.emr = .val v
  dmr : ∃ v, s.dmr = .val v
  addrOnI2c : t = .i2c → ∃ a, s.i2cAddr = .val a
  addrElse : t ≠ .i2c → s.i2cAddr = .x
  outElse : t ≠ .i2c → s.out = s.params.expReset
  unowned : ∀ p, p ∉ ownedPins t → s.pins.get p = .X
  owned : ∀ a ∈ s.acts, ownedAction t s.i2cAddr a = true

/-- The column "before construction" of 10_state.md R41, and the silence of 70_reset_and_hazards.md R241. -/
structure UnbuiltInv (s : State) : Prop where
  tsel : s.tsel = .x
  addr : s.i2cAddr = .x
  emr : s.emr = .x
  dmr : s.dmr = .x
  pins : s.pins = .allX
  out : s.out = s.params.expReset
  resp : s.resp = .none
  trace : s.trace = []

/-- THE INVARIANT of the block: what every state of a run satisfies, whatever the environment answers. -/
structure Inv (s : State) : Prop where
  /-- `BUSY = 0`: `A = []` and `pc = 0` (10_state.md R24; 42_controller_ops.md R150). -/
  idle : s.busy = false → s.acts = [] ∧ s.pc = 0 ∧ s.hung = false
  /-- `BUSY = 1`: no response yet, and 0 ≤ pc ≤ length(A) (10_state.md R24, R26), in INIT or READY. -/
  running : s.busy = true → s.resp = .none ∧ s.pc ≤ s.acts.length ∧ (s.life = .init ∨ s.life = .ready)
  /-- INIT: an init sequence is running (10_state.md R21). -/
  init : s.life = .init → s.busy = true
  /-- ABSENT: initialization failed, the last response is ERR (43_init_sequencer.md R197). -/
  absent : s.life = .absent → s.resp = .err
  /-- READY with no request running: the last request was answered (10_state.md R26). -/
  ready : s.life = .ready → s.busy = false → s.resp ≠ .none
  unbuilt : s.life = .unbuilt → UnbuiltInv s
  built : s.life ≠ .unbuilt → ∃ t, BuiltInv s t

/-- `k` steps of the machine, stopping at the first fault or refusal: `Host.Core.run` of this machine. -/
def steps : Nat → State → Host.Outcome State Fault Refusal
  | 0, s => .next s
  | k + 1, s =>
    match step s with
    | .next t => steps k t
    | .fault f => .fault f
    | .refused r => .refused r

/-- How many answers an action list takes from the environment. -/
def fallibleCount (as : List Action) : Nat := (as.filter fallible).length

/-- Every primitive of the list will answer Ok: the script starts with that many Ok answers, and the expander acknowledges every
address used (41_transport.md R125). -/
def AllOk (s : State) (as : List Action) : Prop :=
  (∃ rest, s.env = List.replicate (fallibleCount as) .ok ++ rest) ∧
    ∀ a v, Action.i2cTx a v ∈ as → acknowledges s.params a = true

/-- A request is running and the next move is one of its actions: nothing is stuck and no bus word waits (00_scope.md R10). -/
def Running (s : State) : Prop := s.hung = false ∧ s.busy = true ∧ s.busPort = []

/-- The host has nothing more to issue, so a run ends with the request that is running. -/
def LastRequest (s : State) : Prop := s.program = [] ∧ s.pending = []

/-- Two states that differ at most in the pin levels, in `OUT` and in the trace: what the block can never read (10_state.md R36,
R38; 60_exceptions.md R212, R221). -/
def SameButOutputs (s t : State) : Prop := t = { s with pins := t.pins, out := t.out, trace := t.trace }

/-- The command bytes the block can emit (30_encoding.md R79). -/
def emittableCommand (b : Byte) : Bool :=
  decide (b ∈ [0x01#8, 0x02#8, 0x10#8, 0x14#8, 0x18#8, 0x1C#8, 0x28#8, 0x30#8, 0x32#8, 0x33#8, 0x38#8])
    || (decide (0x04 ≤ b.toNat) && decide (b.toNat ≤ 0x0F)) || decide (0x80 ≤ b.toNat)

/-- The bus words the block can emit: an emittable command or any data byte (30_encoding.md R79). -/
def emittableWord (w : BusWord) : Bool := isData w || emittableCommand (busByte w)

/-- A byte at the expander that keeps the LCD in write mode and the backlight as it is: R/W low and the backlight bit at the constant
`BL` (41_transport.md R121, R126; 60_exceptions.md R227). -/
def writeModeByte (p : Params) (v : Byte) : Bool := !v.getLsbD p.expMap.rw.val && v.getLsbD p.expMap.bl.val == p.bl

/-- THE EXPANDER'S INVARIANT: every byte still to be sent keeps write mode and the backlight, and so does `OUT` once a byte has been
written (41_transport.md R121; 10_state.md R38). -/
structure WriteModeInv (s : State) : Prop where
  acts : ∀ a v, Action.i2cTx a v ∈ s.acts → writeModeByte s.params v = true
  out : s.out = s.params.expReset ∨ ∃ v, s.out = .val v ∧ writeModeByte s.params v = true

/-- E as the expander drives it is low (41_transport.md R126). -/
def enLow (p : Params) (v : Byte) : Bool := !v.getLsbD p.expMap.en.val

end Sys2Proof
end

