-- ==== Sys2Proof/Certificates/Slice0/Obligations.lean ====
section
/-! DEFINITION. Certificates/Slice0/Obligations.lean: the statements about the model, for the provers. -/

open Sys2Proof Sys2Proof.Machine

/-! ## Encoding -/

/-- Words written out from the tables of 30_encoding.md R76, R72, R73 and R81, one or more of every family. -/
def Obligations.TableWordsDecode : Prop :=
  decodeRequest 0b0000000100000000#16 = .ok .clear ∧
  decodeRequest 0b0000001100000110#16 = .ok (.setDisplayMode .on .on .off) ∧
  decodeRequest 0b0000100000000001#16 = .ok (.setCursorMode .increment) ∧
  decodeRequest 0b0000100110000101#16 = .ok (.setCursorPos 0x85#8) ∧
  decodeRequest 0b0000101100000000#16 = .ok (.shiftDisplay .left) ∧
  decodeRequest 0b0000110001000001#16 = .ok (.writeByte 0x41#8) ∧
  decodeRequest 0b0001000100000000#16 = .ok .new4bit ∧
  decodeRequest 0b0001001000100111#16 = .ok (.newI2c 0x27#7) ∧
  decodeBus 0b000000110#9 = .ok (.busEntry .increment .off) ∧
  decodeBus 0b000001011#9 = .ok (.busDispctl .off .on .on) ∧
  decodeBus 0b000011100#9 = .ok (.busShift .display .right) ∧
  decodeBus 0b011000000#9 = .ok (.busSetddram 0x40#7) ∧
  decodeBus 0b101000001#9 = .ok (.busData 0x41#8) ∧
  decodeInit 0b000110011#9 = .ok .init33

/-- Decode and encode agree on every well-formed instruction, at every value of every operand. -/
def Obligations.DecodeOfEncode : Prop :=
  ∀ i : Instr, i.wf = true → decodeLine (encode i) = .ok i

/-- Every request word and every bus word has at most one meaning, and its encoding is the word itself: no bit is dropped. -/
def Obligations.EncodeOfDecode : Prop :=
  (∀ (w : RequestWord) (i : Instr), decodeRequest w = .ok i → encode i = .host (.request w)) ∧
  (∀ (w : BusWord) (i : Instr), decodeBus w = .ok i → encode i = .bus (.bus w)) ∧
  (∀ (w : BusWord) (i : Instr), decodeInit w = .ok i → encode i = .bus (.init w))

/-- R78: a request word decodes exactly when it fits a row of R76 (its fixed bits as match and mask); every other word is reserved,
and the block, free to take a request, refuses it. -/
def Obligations.ReservedRequestsRefused : Prop :=
  ∀ (w : RequestWord) (s : State) (rest : List HostLine),
    s.hung = false → s.busy = false → s.pending = [] → s.program = .request w :: rest →
    let fits := ∃ row ∈ [(0x0100#16, 0xFFFF#16), (0x0200#16, 0xFFFF#16), (0x0300#16, 0xFFF8#16), (0x0400#16, 0xFFFE#16),
      (0x0500#16, 0xFFFE#16), (0x0600#16, 0xFFFE#16), (0x0700#16, 0xFFFE#16), (0x0800#16, 0xFFFE#16), (0x0900#16, 0xFF00#16),
      (0x0A00#16, 0xFFFE#16), (0x0B00#16, 0xFFFE#16), (0x0C00#16, 0xFF00#16), (0x1000#16, 0xFFFF#16), (0x1100#16, 0xFFFF#16),
      (0x1200#16, 0xFF80#16)], w &&& row.2 = row.1
    ((∃ i, decodeRequest w = .ok i) ↔ fits) ∧ (¬ fits → ∃ e, step s = .refused (.undecodable e))

/-- R100 and R101: the encoders' marker bits, setting bits and zero bits. -/
def Obligations.SettingEncodersBits : Prop :=
  (∀ (md : MoveDirection) (ds : OnOff),
    encEntry (emrOf md ds) = 0x04#8 ||| (if md = .increment then 0x02#8 else 0) ||| (if ds = .on then 0x01#8 else 0)) ∧
  (∀ d c b : OnOff,
    encDispctl (dmrOf d c b) = 0x08#8 ||| (if d = .on then 0x04#8 else 0) ||| (if c = .on then 0x02#8 else 0)
      ||| (if b = .on then 0x01#8 else 0)) ∧
  emrAtConstruction = emrOf .increment .off ∧ dmrAtConstruction = dmrOf .on .on .on

/-- R121: the payload puts every line's bit at its place, for every bijective map: RS, EN, RW = 0, the constant BL and the nibble;
with the default map it is the nibble, BL, EN, 0 and RS from the top down. -/
def Obligations.PayloadLines : Prop :=
  ∀ (p : Params) (n : Nibble) (rs en : Bool), p.expMap.wf = true →
    let v := payload p n rs en
    v.getLsbD p.expMap.rs.val = rs ∧ v.getLsbD p.expMap.rw.val = false ∧ v.getLsbD p.expMap.en.val = en ∧
    v.getLsbD p.expMap.bl.val = p.bl ∧ v.getLsbD p.expMap.n0.val = n.getLsbD 0 ∧ v.getLsbD p.expMap.n1.val = n.getLsbD 1 ∧
    v.getLsbD p.expMap.n2.val = n.getLsbD 2 ∧ v.getLsbD p.expMap.n3.val = n.getLsbD 3 ∧
    (p.expMap = .default → v = n ++ BitVec.ofBool p.bl ++ BitVec.ofBool en ++ 0#1 ++ BitVec.ofBool rs)

/-- R126: the LCD's lines at an expander: each is the bit of OUT at its place in the map, and X while OUT is unknown; so a payload
drives RS and E to its bits, R/W low, the backlight to BL, and DB7..DB4 to the nibble; and the lines of a latch event are these. -/
def Obligations.ExpanderWiring : Prop :=
  ∀ (p : Params) (n : Nibble) (rs en : Bool) (v : Byte) (ps : Pins), p.expMap.wf = true →
    let bit := fun (k : Fin 8) => bitLevel (v.getLsbD k.val)
    expanderLines p (.val v) = ⟨bit p.expMap.rs, bit p.expMap.rw, bit p.expMap.en, bit p.expMap.bl, bit p.expMap.n3,
      bit p.expMap.n2, bit p.expMap.n1, bit p.expMap.n0⟩ ∧
    expanderLines p .x = ⟨.X, .X, .X, .X, .X, .X, .X, .X⟩ ∧
    expanderLines p (.val (payload p n rs en)) = ⟨bitLevel rs, .L, bitLevel en, bitLevel p.bl, bitLevel (n.getLsbD 3),
      bitLevel (n.getLsbD 2), bitLevel (n.getLsbD 1), bitLevel (n.getLsbD 0)⟩ ∧
    linesOf p .i2c ps (.val v) = ⟨bit p.expMap.rs, bit p.expMap.en, [bit p.expMap.n3, bit p.expMap.n2, bit p.expMap.n1,
      bit p.expMap.n0]⟩

/-! ## Reset -/

/-- The launch premise of R243; and all ten open parameters at the defaults of R7, with no value where R7 gives none: that the state
at reset holds these is the model's choice (log 2), and so are the host's empty lists (log 5). -/
def Obligations.LaunchPremise : Prop :=
  State.reset.life = .unbuilt ∧ State.reset.busy = false ∧ State.reset.resp = .none ∧ State.reset.acts = [] ∧
  (∀ p, State.reset.pins.get p = .X) ∧ State.reset.out = State.reset.params.expReset ∧
  State.reset.program = [] ∧ State.reset.pending = [] ∧
  State.reset.tsel = .x ∧ State.reset.i2cAddr = .x ∧ State.reset.emr = .x ∧ State.reset.dmr = .x ∧
  State.reset.params.tEnPw = .x ∧ State.reset.params.tPost = .x ∧ State.reset.params.tClear = 100 ∧
  State.reset.params.tHome = 100 ∧ State.reset.params.expMap = ⟨0, 1, 2, 3, 4, 5, 6, 7⟩ ∧ State.reset.params.bl = true ∧
  State.reset.params.nibbleSeq = .threeByte ∧ State.reset.params.rsTrailer = false ∧ State.reset.params.expReset = .x ∧
  State.reset.params.expAddr = .x

/-! ## What each instruction does: its completion, with its frame -/

/-- R152 and R153: `clear` and `reset` are accepted whenever an instance exists and none is running; the expansion is one command
word and one wait, and nothing but BUSY, RESP, A and pc changes: EMR and DMR among what stays. -/
def Obligations.FixedCommandsAccepted : Prop :=
  ∀ s : State, s.life = .ready → s.busy = false →
    exec .clear s = .next { s with busy := true, resp := .none, acts := wordActions s 0x001#9 ++ [.wait .clear], pc := 0 } ∧
    exec .reset s = .next { s with busy := true, resp := .none, acts := wordActions s 0x002#9 ++ [.wait .home], pc := 0 }

/-- R154 to R157: the DisplayMode setters store the new value first and send it whole; a single-field setter takes the other two
fields from DMR; nothing but BUSY, RESP, A and pc changes at acceptance. -/
def Obligations.DisplayModeSettersAccepted : Prop :=
  ∀ (s : State) (m : BitVec 3) (d c b v : OnOff), s.life = .ready → s.busy = false → s.dmr = .val m →
    let accepted := fun n : BitVec 3 => { s with
      busy := true, resp := .none, pc := 0, acts := .setDmr n :: wordActions s (0b000001#6 ++ n) ++ [.wait .cmd] }
    exec (.setDisplayMode d c b) s = .next (accepted (d.bit ++ c.bit ++ b.bit)) ∧
    exec (.setDisplay v) s = .next (accepted (v.bit ++ m.extractLsb' 1 1 ++ m.extractLsb' 0 1)) ∧
    exec (.setCursorVisibility v) s = .next (accepted (m.extractLsb' 2 1 ++ v.bit ++ m.extractLsb' 0 1)) ∧
    exec (.setCursorBlink v) s = .next (accepted (m.extractLsb' 2 1 ++ m.extractLsb' 1 1 ++ v.bit))

/-- R158 and R159: the EntryMode setters. -/
def Obligations.EntryModeSettersAccepted : Prop :=
  ∀ (s : State) (m : BitVec 2) (v : OnOff) (d : MoveDirection), s.life = .ready → s.busy = false → s.emr = .val m →
    let accepted := fun n : BitVec 2 => { s with
      busy := true, resp := .none, pc := 0, acts := .setEmr n :: wordActions s (0b0000001#7 ++ n) ++ [.wait .cmd] }
    exec (.setAutoscroll v) s = .next (accepted (m.extractLsb' 1 1 ++ v.bit)) ∧
    exec (.setCursorMode d) s = .next (accepted (d.bit ++ m.extractLsb' 0 1))

/-- R160, R161 and R162: the address command, with bit 7 of the position dropped, and the shifts. -/
def Obligations.PositionAndShiftsAccepted : Prop :=
  ∀ (s : State) (p : Byte) (d : ShiftDirection), s.life = .ready → s.busy = false →
    let accepted := fun w : BusWord => { s with
      busy := true, resp := .none, pc := 0, acts := wordActions s w ++ [.wait .cmd] }
    exec (.setCursorPos p) s = .next (accepted (0b01#2 ++ p.extractLsb' 0 7)) ∧
    exec (.shiftCursor d) s = .next (accepted (0b000010#6 ++ d.bit ++ 0b00#2)) ∧
    exec (.shiftDisplay d) s = .next (accepted (0b000011#6 ++ d.bit ++ 0b00#2))

/-- R163 and R164: a data byte goes out with RS = 1, whatever its value; `write_char` sends the low 8 bits. -/
def Obligations.DataWritesAccepted : Prop :=
  ∀ (s : State) (b : Byte) (c : Scalar), s.life = .ready → s.busy = false →
    let accepted := fun x : Byte => { s with
      busy := true, resp := .none, pc := 0, acts := wordActions s (1#1 ++ x) ++ [.wait .cmd] }
    exec (.writeByte b) s = .next (accepted b) ∧ exec (.writeChar c) s = .next (accepted (c.extractLsb' 0 8))

/-- R165 and R166: a byte sequence issues its first byte and owes the rest; an empty one issues nothing and reports OK; `write_str`
is `write_bytes` of the UTF-8 bytes, with the bytes of the spec's examples. That the owed bytes and the reports are fields of the
state, and that an empty sequence is answered in any state, is the model's choice (log 5); UTF-8 itself is presumed (log 9). -/
def Obligations.ByteSequencesIssued : Prop :=
  (∀ (s : State) (b : Byte) (rest : List Byte), s.life = .ready → s.busy = false →
    exec (.writeBytes (b :: rest)) s = .next { s with
      busy := true, resp := .none, pc := 0, pending := rest, acts := wordActions s (1#1 ++ b) ++ [.wait .cmd] }) ∧
  (∀ s : State, exec (.writeBytes []) s = .next { s with results := s.results ++ [.ok] }) ∧
  (∀ (s : State) (str : List Scalar), exec (.writeStr str) s = exec (.writeBytes (utf8 str)) s) ∧
  (∀ (s : State) (str : List Scalar) (b : Byte) (rest : List Byte), s.life = .ready → s.busy = false → utf8 str = b :: rest →
    exec (.writeStr str) s = .next { s with
      busy := true, resp := .none, pc := 0, pending := rest, acts := wordActions s (1#1 ++ b) ++ [.wait .cmd] }) ∧
  (∀ s : State, exec (.writeStr []) s = .next { s with results := s.results ++ [.ok] }) ∧
  utf8 [0x48#21, 0x69#21] = [0x48#8, 0x69#8] ∧ utf8 [0xE9#21] = [0xC3#8, 0xA9#8] ∧ utf8 [0x20AC#21] = [0xE2#8, 0x82#8, 0xAC#8]

/-- The bytes `write_str` sends are the UTF-8 encoding of its characters: for every Unicode scalar value, exactly the bytes of Lean's
own encoder; and the characters the model admits are exactly those values. R166 says 'UTF-8'; which bytes that means is presumed from
outside the spec (log 9). -/
def Obligations.StringsAreUtf8 : Prop :=
  (∀ c : Char, utf8Char (BitVec.ofNat 21 c.toNat) = (String.utf8EncodeChar c).map UInt8.toBitVec) ∧
  (∀ s : List Char, utf8 (s.map fun c => BitVec.ofNat 21 c.toNat) = s.flatMap fun c => (String.utf8EncodeChar c).map UInt8.toBitVec) ∧
  ∀ x : Scalar, isScalar x = true ↔ ∃ c : Char, BitVec.ofNat 21 c.toNat = x

/-- R190 to R193: what accepting each construction writes, and the init list it loads, step by step; nothing else changes. -/
def Obligations.ConstructionsAccepted : Prop :=
  ∀ (s : State) (a : Addr7), s.life = .unbuilt → s.busy = false →
    let c8 := { s with tsel := .val .p8, emr := .val 0b10#2, dmr := .val 0b111#3, life := .init, busy := true, resp := .none }
    let c4 := { c8 with tsel := .val .p4 }
    let ci := { c8 with tsel := .val .i2c, i2cAddr := .val a }
    let path8 := fun W : Byte → List Action => List.flatten [[Action.wait .powerOn],
      W 0x30#8, [Action.wait .initLong], W 0x38#8, [Action.wait .initShort], W 0x0E#8, [Action.wait .initShort],
      W 0x01#8, [Action.wait .initShort], W 0x07#8, [Action.wait .initShort], W 0x06#8, [Action.wait .initShort]]
    let path4 := fun W : Byte → List Action => List.flatten [[Action.wait .powerOn],
      W 0x33#8, [Action.wait .initLong], W 0x32#8, [Action.wait .initShort], W 0x28#8, [Action.wait .initShort],
      W 0x0E#8, [Action.wait .initShort], W 0x01#8, [Action.wait .initShort], W 0x06#8, [Action.wait .initShort],
      W 0x80#8, [Action.wait .initShort]]
    exec .new8bit s = .next { c8 with pc := 0, acts := path8 fun b => p8Write b false } ∧
    exec .new4bit s = .next { c4 with pc := 0, acts := path4 fun b => p4Write b false } ∧
    exec (.newI2c a) s = .next { ci with pc := 0, acts := path4 fun b => i2cWrite s.params a b false }

/-- A bus word is emitted as part of a running request: its transport's action list joins `A`, and nothing else changes; while no
request runs it is refused. That the words can be handed in one by one, and where they are refused, is the model's choice (log 8). -/
def Obligations.BusWordsJoinTheRequest : Prop :=
  (∀ (i : Instr) (s : State), i.kind = .busWord → ¬ (s.busy = true ∧ (s.life = .init ∨ s.life = .ready)) →
    exec i s = .refused .noRequestRunning) ∧
  ∀ (s : State) (m : MoveDirection) (d c b : OnOff) (t : ShiftTarget) (r : ShiftDirection) (a : Addr7) (x : Byte),
    s.busy = true → (s.life = .init ∨ s.life = .ready) →
    let joined := fun w : BusWord => { s with acts := s.acts ++ wordActions s w }
    exec .busClear s = .next (joined 0x001#9) ∧ exec .busHome s = .next (joined 0x002#9) ∧
    exec (.busEntry m d) s = .next (joined (0b0000001#7 ++ m.bit ++ d.bit)) ∧
    exec (.busDispctl d c b) s = .next (joined (0b000001#6 ++ d.bit ++ c.bit ++ b.bit)) ∧
    exec (.busShift t r) s = .next (joined (0b00001#5 ++ t.bit ++ r.bit ++ 0b00#2)) ∧
    exec (.busSetddram a) s = .next (joined (0b01#2 ++ a)) ∧ exec (.busData x) s = .next (joined (1#1 ++ x))

/-- The init literals of R81, each on its path, within the init sequence; refused outside an init sequence, on the other path, and
while no request runs. That they can be handed in one by one, and where they are refused, is the model's choice (log 8). -/
def Obligations.InitLiteralsJoinTheInit : Prop :=
  (∀ (i : Instr) (s : State), i.kind = .initLiteral →
    (s.life ≠ .init → exec i s = .refused .notInitPath) ∧ (s.busy = false → ∃ r, exec i s = .refused r)) ∧
  (∀ s : State,
    (s.tsel = .val .p8 → exec .init33 s = .refused .notInitPath ∧ exec .init32 s = .refused .notInitPath ∧
      exec .init28 s = .refused .notInitPath ∧ exec .init80 s = .refused .notInitPath) ∧
    (s.tsel = .val .p4 ∨ s.tsel = .val .i2c → exec .init30 s = .refused .notInitPath ∧ exec .init38 s = .refused .notInitPath ∧
      exec .init07 s = .refused .notInitPath)) ∧
  ∀ s : State, s.busy = true → s.life = .init →
    let joined := fun w : BusWord => { s with acts := s.acts ++ wordActions s w }
    (s.tsel = .val .p4 ∨ s.tsel = .val .i2c →
      exec .init33 s = .next (joined 0x033#9) ∧ exec .init32 s = .next (joined 0x032#9) ∧
      exec .init28 s = .next (joined 0x028#9) ∧ exec .init80 s = .next (joined 0x080#9)) ∧
    (s.tsel = .val .p8 →
      exec .init30 s = .next (joined 0x030#9) ∧ exec .init38 s = .next (joined 0x038#9) ∧
      exec .init07 s = .next (joined 0x007#9)) ∧
    exec .init0E s = .next (joined 0x00E#9) ∧ exec .init01 s = .next (joined 0x001#9)

/-- R150, R165: a host operation, or a pseudo-instruction that has a byte to send, is refused in every state but READY with
BUSY = 0. -/
def Obligations.OperationsRefusedOutsideReady : Prop :=
  ∀ (i : Instr) (s : State), (i.kind = .operation ∨ i.kind = .pseudo ∧ i ≠ .writeBytes [] ∧ i ≠ .writeStr []) →
    (s.life = .unbuilt ∨ s.life = .absent → exec i s = .refused .noInstance) ∧
    (s.life = .init ∨ (s.life = .ready ∧ s.busy = true) → exec i s = .refused .requestInProgress)

/-- R190, its acceptance: a construction is accepted exactly when LIFE = UNBUILT and BUSY = 0, and refused otherwise. -/
def Obligations.ConstructionOnlyOnce : Prop :=
  ∀ (i : Instr) (s : State), i.kind = .construction →
    ((∃ t, exec i s = .next t) ↔ s.life = .unbuilt ∧ s.busy = false) ∧
    (¬ (s.life = .unbuilt ∧ s.busy = false) → ∃ r, exec i s = .refused r)

/-- R85: the equivalences between requests, in every state. -/
def Obligations.DerivedEquivalences : Prop :=
  ∀ (s : State) (m : BitVec 3) (v : OnOff) (c : Scalar) (p : Byte), s.dmr = .val m →
    exec (.setDisplay v) s = exec (.setDisplayMode v (dmrCur m) (dmrBlink m)) s ∧
    exec (.setCursorVisibility v) s = exec (.setDisplayMode (dmrDisp m) v (dmrBlink m)) s ∧
    exec (.setCursorBlink v) s = exec (.setDisplayMode (dmrDisp m) (dmrCur m) v) s ∧
    (c.toNat < 0x100 → exec (.writeChar c) s = exec (.writeByte (BitVec.ofNat 8 c.toNat)) s) ∧
    exec (.setCursorPos p) s = exec (.setCursorPos (p &&& 0x7F#8)) s

/-! ## One step -/

/-- A step runs the instruction that was fetched: a line of the host's program when no request runs, the next byte a
pseudo-instruction owes, or a bus word while a request runs; the line is taken. The host's lines and owed bytes in the state (log 5),
the bus port (log 8) and that taking a line is a step of its own (log 15) are the model's choice. -/
def Obligations.StepRunsTheDecodedInstruction : Prop :=
  (∀ (s : State) (l : HostLine) (rest : List HostLine) (i : Instr), s.hung = false → s.busy = false → s.pending = [] →
    s.program = l :: rest → decodeHost l = .ok i → step s = exec i { s with program := rest }) ∧
  (∀ (s : State) (b : Byte) (rest : List Byte), s.hung = false → s.busy = false → s.pending = b :: rest →
    step s = exec (.writeByte b) { s with pending := rest }) ∧
  (∀ (s : State) (w : BusLine) (rest : List BusLine) (i : Instr), s.hung = false → s.busy = true →
    s.busPort = w :: rest → decodeBusLine w = .ok i → step s = exec i { s with busPort := rest })

/-- An instruction placed by `withFetchWord` is what the very next step runs, and it completes; nothing waiting behind it is lost,
and parameters, script, trace and outputs stay. How it is placed is the model's choice (log 13, log 14). -/
def Obligations.PlacedWordRunsNext : Prop :=
  ∀ (s : State) (nbits w : Nat) (i : Instr), decodeTableWord nbits w = some i →
    ∃ t u, step (s.withFetchWord nbits w) = exec i t ∧ exec i t = .next u ∧ t.program = s.program ∧ t.busPort = s.busPort ∧
      t.params = s.params ∧ t.env = s.env ∧ t.trace = s.trace ∧ t.pins = s.pins ∧ t.out = s.out

/-- R113 and the infallible actions of R9: a wait changes no pin and no register; a shadow write writes its register. Each
completes whatever the environment would answer. -/
def Obligations.InfallibleActionsComplete : Prop :=
  ∀ s : State, Running s →
    (∀ d, s.acts[s.pc]? = some (.wait d) →
      step s = .next { s with pc := s.pc + 1, trace := s.trace ++ [⟨.wait d, .ok⟩] }) ∧
    (∀ v, s.acts[s.pc]? = some (.setEmr v) →
      step s = .next { s with emr := .val v, pc := s.pc + 1, trace := s.trace ++ [⟨.setEmr v, .ok⟩] }) ∧
    (∀ v, s.acts[s.pc]? = some (.setDmr v) →
      step s = .next { s with dmr := .val v, pc := s.pc + 1, trace := s.trace ++ [⟨.setDmr v, .ok⟩] })

/-- R111: the outcomes of a `Drive`, each recorded in the trace: the level and `pc <- pc + 1`; or the error with the old or the new
level, by the draw; or a primitive that never returns. Every other pin keeps its level. How the state shows a primitive that never
returns, and that its pin then keeps the old level, is the model's reading (log 6). -/
def Obligations.DriveOutcomes : Prop :=
  ∀ (s : State) (p : Pin) (l : Drv), Running s → s.acts[s.pc]? = some (.drive p l) →
    (nextAnswer s = .ok → step s = .next { s with
      pins := s.pins.set p l.level, pc := s.pc + 1, env := s.env.tail, draws := s.draws + 1,
      trace := s.trace ++ [⟨.drive p l, .ok⟩] }) ∧
    (∀ took, nextAnswer s = .err took → ∃ t, step s = .next t ∧
      t.pins = (if took then s.pins.set p l.level else s.pins) ∧ t.out = s.out ∧ t.resp = .err ∧
      t.trace = s.trace ++ [⟨.drive p l, .err took⟩]) ∧
    (nextAnswer s = .hang → step s = .next { s with
      hung := true, env := s.env.tail, draws := s.draws + 1, trace := s.trace ++ [⟨.drive p l, .hang⟩] }) ∧
    (∀ q, (s.pins.set p l.level).get q = if q = p then l.level else s.pins.get q)

/-- R112 and R125: the outcomes of an `I2CTx`. How the state shows a primitive that never returns, with OUT at its old value, is the
model's reading (log 6); so is that at an address the expander does not have a draw of Ok gives the error with OUT unchanged, while the
draws of an error and of never returning stand (log 11). -/
def Obligations.I2cTxOutcomes : Prop :=
  ∀ (s : State) (a : Addr7) (v : Byte), Running s → s.acts[s.pc]? = some (.i2cTx a v) →
    (nextAnswer s = .ok → acknowledges s.params a = true → step s = .next { s with
      out := .val v, pc := s.pc + 1, env := s.env.tail, draws := s.draws + 1, trace := s.trace ++ [⟨.i2cTx a v, .ok⟩] }) ∧
    (∀ took, nextAnswer s = .err took → ∃ t, step s = .next t ∧ t.out = (if took then .val v else s.out) ∧
      t.pins = s.pins ∧ t.resp = .err ∧ t.trace = s.trace ++ [⟨.i2cTx a v, .err took⟩]) ∧
    (nextAnswer s = .hang → step s = .next { s with
      hung := true, env := s.env.tail, draws := s.draws + 1, trace := s.trace ++ [⟨.i2cTx a v, .hang⟩] }) ∧
    (∀ e, s.params.expAddr = .val e → e ≠ a → nextAnswer s = .ok → ∃ t, step s = .next t ∧ t.resp = .err ∧ t.out = s.out)

/-- R214: what an error does: the rest of the list is dropped, RESP is ERR, BUSY is 0, INIT becomes ABSENT and READY stays; EMR, DMR,
TSEL and I2C_ADDR keep their values, and the bytes a pseudo-instruction still owed are never issued. -/
def Obligations.ErrorEntryEffect : Prop :=
  ∀ (s : State) (a : Action) (took : Bool), Running s → s.acts[s.pc]? = some a → fallible a = true →
    answerFor s a = .err took → ∃ t, step s = .next t ∧
      t.acts = [] ∧ t.pc = 0 ∧ t.resp = .err ∧ t.busy = false ∧ t.life = (if s.life = .init then .absent else s.life) ∧
      t.emr = s.emr ∧ t.dmr = s.dmr ∧ t.tsel = s.tsel ∧ t.i2cAddr = s.i2cAddr ∧
      (∀ q, (∀ l, a ≠ .drive q l) → t.pins.get q = s.pins.get q) ∧
      (∀ q l, a = .drive q l → t.pins.get q = s.pins.get q ∨ t.pins.get q = l.level) ∧
      ((∀ x v, a ≠ .i2cTx x v) → t.out = s.out) ∧ (∀ x v, a = .i2cTx x v → t.out = s.out ∨ t.out = .val v) ∧
      t.responses = s.responses ++ [.err] ∧ t.pending = [] ∧ t.results = s.results ++ [.err]

/-- R10 (its end) and R196: when pc reaches length(A) the request ends with OK; an init sequence then gives READY; pins, OUT, EMR,
DMR, TSEL and I2C_ADDR stay. -/
def Obligations.EndOfListAnswersOk : Prop :=
  ∀ s : State, Running s → s.pc = s.acts.length → ∃ t, step s = .next t ∧
    t.resp = .ok ∧ t.busy = false ∧ t.acts = [] ∧ t.pc = 0 ∧ t.life = (if s.life = .init then .ready else s.life) ∧
    t.pins = s.pins ∧ t.out = s.out ∧ t.emr = s.emr ∧ t.dmr = s.dmr ∧ t.tsel = s.tsel ∧ t.i2cAddr = s.i2cAddr ∧
    t.trace = s.trace ∧ t.responses = s.responses ++ [.ok]

/-- R213: a primitive that never returns leaves BUSY = 1 and no response, and no step is enabled any more. That the pins and OUT keep
their values, and that the stuck state answers the fault `hung`, is the model's reading (log 6). -/
def Obligations.HangNeverAnswers : Prop :=
  ∀ (s : State) (a : Action), Running s → s.acts[s.pc]? = some a → fallible a = true → answerFor s a = .hang →
    ∃ t, step s = .next t ∧ t.busy = true ∧ t.resp = s.resp ∧ t.responses = s.responses ∧ t.pins = s.pins ∧ t.out = s.out ∧
      step t = .fault .hung

/-! ## What every step keeps -/

/-- The invariant holds at reset. -/
def Obligations.ResetMeetsTheInvariant : Prop := Inv State.reset

/-- Every step keeps the invariant, in every state that meets it and whatever the environment answers. -/
def Obligations.StepKeepsTheInvariant : Prop :=
  ∀ s t : State, Inv s → step s = .next t → Inv t

/-- The expander's invariant holds at reset, where no byte has been written. -/
def Obligations.ResetKeepsWriteMode : Prop := WriteModeInv State.reset

/-- R121, R227: on every bijective map, no step ever lets a byte through that would raise R/W or change the backlight: in every state
that meets the expander's invariant, whatever the environment answers, OUT holds its power-on value or a byte with R/W low and the
backlight bit at BL, and so does every byte still to be sent. -/
def Obligations.StepKeepsWriteMode : Prop :=
  ∀ s t : State, s.params.expMap.wf = true → WriteModeInv s → step s = .next t → WriteModeInv t

/-- R21: LIFE moves only from UNBUILT to INIT, from INIT to READY and from INIT to ABSENT; ABSENT is never left. -/
def Obligations.LifecycleEdges : Prop :=
  ∀ s t : State, step s = .next t →
    t.life = s.life ∨ (s.life = .unbuilt ∧ t.life = .init ∧ t.busy = true) ∨
    (s.life = .init ∧ t.life = .ready ∧ t.resp = .ok) ∨ (s.life = .init ∧ t.life = .absent ∧ t.resp = .err)

/-- TSEL and I2C_ADDR never change once construction has been accepted, and the parameters never change at all. -/
def Obligations.SelectionIsFixed : Prop :=
  ∀ s t : State, step s = .next t →
    t.params = s.params ∧ (s.life ≠ .unbuilt → t.tsel = s.tsel ∧ t.i2cAddr = s.i2cAddr)

/-- EMR and DMR change only by a shadow write of the running request or at construction, which sets 0b10 and 0b111. -/
def Obligations.ShadowRegistersWrittenOnlyBySetters : Prop :=
  ∀ s t : State, step s = .next t →
    (t.emr = s.emr ∨ (s.busy = true ∧ ∃ v, s.acts[s.pc]? = some (.setEmr v) ∧ t.emr = .val v) ∨
      (s.life = .unbuilt ∧ t.life = .init ∧ t.emr = .val 0b10#2)) ∧
    (t.dmr = s.dmr ∨ (s.busy = true ∧ ∃ v, s.acts[s.pc]? = some (.setDmr v) ∧ t.dmr = .val v) ∨
      (s.life = .unbuilt ∧ t.life = .init ∧ t.dmr = .val 0b111#3))

/-- pc advances by exactly 1 with the action at pc recorded as Ok, or the request ends and A and pc are cleared, or the action
hangs and pc stays: it never moves backwards within a request, never skips and never wraps. -/
def Obligations.ActionPointerMoves : Prop :=
  ∀ s t : State, Running s → step s = .next t →
    (∃ a, s.acts[s.pc]? = some a ∧ t.pc = s.pc + 1 ∧ t.acts = s.acts ∧ t.busy = true ∧ t.trace = s.trace ++ [⟨a, .ok⟩]) ∨
    (t.busy = false ∧ t.acts = [] ∧ t.pc = 0) ∨
    (t.hung = true ∧ t.busy = true ∧ t.pc = s.pc ∧ t.acts = s.acts)

/-- A response is written exactly at the end of a request: the list of responses grows by one when BUSY goes from 1 to 0, by the
value RESP then holds, and in no other step. -/
def Obligations.OneResponsePerRequest : Prop :=
  ∀ s t : State, step s = .next t →
    if s.busy = true ∧ t.busy = false then (t.resp = .ok ∨ t.resp = .err) ∧ t.responses = s.responses ++ [t.resp]
    else t.responses = s.responses

/-- The trace only grows, one action at a time, and pins and OUT change only by an action that the trace then shows. -/
def Obligations.OutputsChangeOnlyByTracedActions : Prop :=
  ∀ s t : State, step s = .next t →
    (t.trace = s.trace ∧ t.pins = s.pins ∧ t.out = s.out) ∨
    ∃ e, s.busy = true ∧ s.acts[s.pc]? = some e.action ∧ t.trace = s.trace ++ [e] ∧
      t.pins = pinsAfter s.pins e ∧ t.out = outAfter s.out e

/-- While a request runs the host issues nothing: no line of its program and no owed byte is taken. -/
def Obligations.HostWaitsWhileBusy : Prop :=
  ∀ s t : State, s.busy = true → step s = .next t →
    t.program = s.program ∧ (t.pending = s.pending ∨ (t.pending = [] ∧ t.resp = .err ∧ t.busy = false))

/-- R241: a step from UNBUILT, the acceptance of a construction included, drives no pin and sends no byte: every pin still holds X
and OUT its power-on value; and what a construction then runs first is the power-on wait. -/
def Obligations.SilentBeforeConstruction : Prop :=
  ∀ s t : State, Inv s → s.life = .unbuilt → step s = .next t →
    t.trace = [] ∧ (∀ p, t.pins.get p = .X) ∧ t.out = t.params.expReset ∧
    (t.life = .unbuilt ∨ t.acts.head? = some (.wait .powerOn))

/-- The block cannot read its pins, OUT or its trace: two states that differ only there take the same step, and differ only there
after it. -/
def Obligations.OutputsAreNeverRead : Prop :=
  ∀ s s' : State, SameButOutputs s s' →
    match step s with
    | .next t => ∃ t', step s' = .next t' ∧ SameButOutputs t t'
    | .fault f => step s' = .fault f
    | .refused r => step s' = .refused r

/-! ## Whole requests -/

/-- Every accepted host operation whose primitives all answer Ok completes: one step per action and one for its end (what one step
is: the model's choice, log 15), every action in the trace in order, RESP = OK, BUSY = 0, LIFE still READY. -/
def Obligations.OperationRunsToOk : Prop :=
  ∀ (i : Instr) (s t : State), i.kind = .operation → s.hung = false → s.busPort = [] → exec i s = .next t → AllOk t t.acts →
    ∃ u, steps (t.acts.length + 1) t = .next u ∧ u.resp = .ok ∧ u.busy = false ∧ u.life = .ready ∧ u.acts = [] ∧ u.pc = 0 ∧
      u.trace = s.trace ++ t.acts.map okEvent ∧ u.responses = s.responses ++ [.ok] ∧ u.tsel = s.tsel ∧ u.i2cAddr = s.i2cAddr ∧
      u.params = s.params

/-- Every accepted construction whose primitives all answer Ok gives an instance, with as many actions as R200 counts, the registers
at the values of R29 and R32, and RESP = OK. That its end is one step more is the model's choice (log 15). -/
def Obligations.ConstructionRunsToReady : Prop :=
  ∀ (i : Instr) (s t : State), i.kind = .construction → s.hung = false → s.busPort = [] → exec i s = .next t →
    AllOk t t.acts →
    ∃ u, steps (t.acts.length + 1) t = .next u ∧ u.life = .ready ∧ u.resp = .ok ∧ u.busy = false ∧
      u.emr = .val 0b10#2 ∧ u.dmr = .val 0b111#3 ∧ u.tsel = t.tsel ∧ u.trace = s.trace ++ t.acts.map okEvent ∧
      t.acts.length = (match readTsel t, s.params.nibbleSeq with
        | .p8, _ => 85
        | .p4, _ => 127
        | .i2c, .threeByte => 78
        | .i2c, .twoByte => 64)

/-- R169, R30, R33: a setter stores before it sends: the shadow write is the first action of its expansion, and from the first step on, whatever
the environment answers then (an error or a hang of the send included), the register holds the new value. The other register stays,
and an operation that is no setter changes neither. -/
def Obligations.StoreBeforeSend : Prop :=
  ∀ (i : Instr) (s t : State) (m : BitVec 2) (n : BitVec 3), i.kind = .operation → s.hung = false → s.busPort = [] →
    LastRequest s → s.emr = .val m → s.dmr = .val n → exec i s = .next t →
    let e := match i with
      | .setAutoscroll v => m.extractLsb' 1 1 ++ v.bit
      | .setCursorMode d => d.bit ++ m.extractLsb' 0 1
      | _ => m
    let g := match i with
      | .setDisplayMode d c b => d.bit ++ c.bit ++ b.bit
      | .setDisplay v => v.bit ++ n.extractLsb' 0 2
      | .setCursorVisibility v => n.extractLsb' 2 1 ++ v.bit ++ n.extractLsb' 0 1
      | .setCursorBlink v => n.extractLsb' 1 2 ++ v.bit
      | _ => n
    (match i with
      | .setAutoscroll _ | .setCursorMode _ => t.acts.head? = some (.setEmr e)
      | .setDisplayMode _ _ _ | .setDisplay _ | .setCursorVisibility _ | .setCursorBlink _ => t.acts.head? = some (.setDmr g)
      | _ => ∀ x ∈ t.acts, (∀ v, x ≠ .setEmr v) ∧ ∀ v, x ≠ .setDmr v) ∧
    ∀ (k : Nat) (u : State), steps (k + 1) t = .next u → u.emr = .val e ∧ u.dmr = .val g

/-- The first failing primitive ends a request, wherever it stands: every action before it completed, none after it ran, and the
response is ERR. -/
def Obligations.FirstErrorEndsTheRequest : Prop :=
  ∀ (s : State) (k : Nat) (took : Bool) (rest : List Answer), Running s → s.pc = 0 →
    (∀ a v, Action.i2cTx a v ∈ s.acts → acknowledges s.params a = true) → k < fallibleCount s.acts →
    s.env = List.replicate k .ok ++ .err took :: rest →
    ∃ pre a post u, s.acts = pre ++ a :: post ∧ fallible a = true ∧ fallibleCount pre = k ∧
      steps (pre.length + 1) s = .next u ∧ u.trace = s.trace ++ pre.map okEvent ++ [⟨a, .err took⟩] ∧
      u.resp = .err ∧ u.busy = false ∧ u.life = (if s.life = .init then .absent else s.life) ∧ u.env = rest

/-- R129: the levels after a BusWrite that succeeds: EN and RS at L and the data lines at the byte (P8) or its lower nibble (P4); on
I2C the last payload, whose RS bit is the tag unless the trailer was sent. -/
def Obligations.AfterASuccessfulWrite : Prop :=
  ∀ (s : State) (b : Byte) (d : Bool), Running s → s.pc = 0 → s.acts = wordActions s (busWord d b) → AllOk s s.acts →
    ∃ u, steps s.acts.length s = .next u ∧ u.busy = true ∧ u.pc = s.acts.length ∧
      (s.tsel = .val .p8 → u.pins.en = .L ∧ u.pins.rs = .L ∧ u.out = s.out ∧
        [u.pins.d7, u.pins.d6, u.pins.d5, u.pins.d4, u.pins.d3, u.pins.d2, u.pins.d1, u.pins.d0] =
          [7, 6, 5, 4, 3, 2, 1, 0].map fun k => bitLevel (b.getLsbD k)) ∧
      (s.tsel = .val .p4 → u.pins.en = .L ∧ u.pins.rs = .L ∧ u.out = s.out ∧
        [u.pins.n3, u.pins.n2, u.pins.n1, u.pins.n0] = [3, 2, 1, 0].map fun k => bitLevel (b.getLsbD k)) ∧
      (s.tsel = .val .i2c → u.pins = s.pins ∧
        u.out = .val (payload s.params (b.extractLsb' 0 4) (d && !s.params.rsTrailer) false))

/-- A byte sequence whose primitives all answer Ok is sent whole, one request per byte, and is reported OK once: the report, and the
owed bytes between the requests, stand in the state by the model's choice (log 5). -/
def Obligations.ByteSequenceRunsToOk : Prop :=
  ∀ (s : State) (seq : List Byte), s.life = .ready → s.busy = false → s.hung = false → s.busPort = [] → s.pending = [] →
    (∃ tr, s.tsel = .val tr) → (s.tsel = .val .i2c → ∃ a, s.i2cAddr = .val a ∧ acknowledges s.params a = true) →
    (∃ rest, s.env = List.replicate (fallibleCount (seq.flatMap fun b => wordActions s (busWord true b))) .ok ++ rest) →
    ∃ (t : State) (n : Nat) (u : State), exec (.writeBytes seq) s = .next t ∧ steps n t = .next u ∧ u.busy = false ∧
      u.life = .ready ∧ u.pending = [] ∧
      u.trace = s.trace ++ (seq.flatMap fun b => wordActions s (busWord true b) ++ [.wait .cmd]).map okEvent ∧
      u.responses = s.responses ++ List.replicate seq.length .ok ∧ u.results = s.results ++ [.ok]

/-- With an address the expander does not have, construction never succeeds: LIFE is INIT until it is ABSENT, and no transaction ever
answers Ok. R259 says that every one ends in Err; that it may also never return, as any primitive may (R213), is the model's reading
(log 11). -/
def Obligations.WrongAddressNeverReady : Prop :=
  ∀ (s t u : State) (a e : Addr7) (k : Nat), s.life = .unbuilt → s.busy = false → s.hung = false → s.busPort = [] →
    s.params.expAddr = .val e → e ≠ a → exec (.newI2c a) s = .next t → steps k t = .next u →
    (u.life = .init ∨ (u.life = .absent ∧ u.resp = .err)) ∧
    ∀ x v, (⟨.i2cTx x v, .ok⟩ : Event) ∈ u.trace → (⟨.i2cTx x v, .ok⟩ : Event) ∈ s.trace

/-! ## The transports' action lists -/

/-- R124: under the default ThreeByte, the first fallible action of every BusWrite does not raise EN: on P8 and P4 it drives another
pin, on I2C its payload has EN at 0. R218: when it fails, one action has run and EN is as it was, or low. -/
def Obligations.FirstOperationNeverRaisesEn : Prop :=
  ∀ (s : State) (w : BusWord) (took : Bool), Running s → s.pc = 0 → s.params.nibbleSeq = .threeByte →
    s.params.expMap.wf = true → s.acts = wordActions s w → nextAnswer s = .err took →
    ∃ a t, s.acts.head? = some a ∧ fallible a = true ∧ (∀ l, a ≠ .drive .en l) ∧
      (∀ x v, a = .i2cTx x v → enLow s.params v = true) ∧ step s = .next t ∧ t.resp = .err ∧
      t.trace = s.trace ++ [⟨a, .err took⟩] ∧ t.pins.en = s.pins.en ∧
      (t.out = s.out ∨ ∃ v, t.out = .val v ∧ enLow s.params v = true)

/-- R118: RS is driven once at the start of a P4 write and, for data only, once more after everything else: never between the two
pulses. -/
def Obligations.RsConstantAcrossBothPulses : Prop :=
  ∀ (b : Byte) (d : Bool), ∃ mid, p4Write b d = .drive .rs (if d then .H else .L) :: mid ++ (if d then [.drive .rs .L] else []) ∧
    (∀ l, Action.drive .rs l ∉ mid) ∧ mid.count (.drive .en .H) = 2 ∧ mid.count (.drive .en .L) = 2

/-- R131: every EN assertion of a BusWrite is followed by its deassertion before the list ends. -/
def Obligations.EveryPulseIsEnded : Prop :=
  ∀ (p : Params) (t : Transport) (a : Addr7) (w : BusWord), p.expMap.wf = true →
    (∀ pre post, busWrite p t a w = pre ++ .drive .en .H :: post → Action.drive .en .L ∈ post) ∧
    (∀ pre post x v, busWrite p t a w = pre ++ .i2cTx x v :: post → enLow p v = false →
      ∃ y u, Action.i2cTx y u ∈ post ∧ enLow p u = true)

/-- What the LCD latches of one bus word that succeeds (R71, R53, R127): on P8 one transfer of the whole byte, on P4 and I2C the upper
nibble and then the lower one, each with RS as the tag. E is low before the write. -/
def Obligations.LatchedTransfers : Prop :=
  ∀ (p : Params) (a : Addr7) (ps : Pins) (o : Byte) (b : Byte) (d : Bool), ps.en = .L → p.expMap.wf = true → enLow p o = true →
    let latched := fun (k : List Nat) => (⟨bitLevel d, k.map fun j => bitLevel (b.getLsbD j), true⟩ : Latch)
    latchesFrom p .p8 ps (.val o) ((busWrite p .p8 a (busWord d b)).map okEvent) = [latched [7, 6, 5, 4, 3, 2, 1, 0]] ∧
    latchesFrom p .p4 ps (.val o) ((busWrite p .p4 a (busWord d b)).map okEvent) = [latched [7, 6, 5, 4], latched [3, 2, 1, 0]] ∧
    latchesFrom p .i2c ps (.val o) ((busWrite p .i2c a (busWord d b)).map okEvent) = [latched [7, 6, 5, 4], latched [3, 2, 1, 0]]

/-- R248: a write that fails after its first nibble's EN deassertion and before its second has latched exactly one nibble, the upper
one, whichever value the failed action leaves; the next write's upper nibble is then taken as the lower half of that byte, and its
lower nibble is held. -/
def Obligations.HalfAByteAfterAnError : Prop :=
  ∀ (p : Params) (a : Addr7) (ps : Pins) (o b : Byte) (d took : Bool) (j : Nat) (x : Action), ps.en = .L → p.expMap.wf = true →
    enLow p o = true → p.nibbleSeq = .threeByte →
    let failed := fun (t : Transport) =>
      latchesFrom p t ps (.val o) (((busWrite p t a (busWord d b)).take j).map okEvent ++ [⟨x, .err took⟩])
    let half := [(⟨bitLevel d, [7, 6, 5, 4].map fun k => bitLevel (b.getLsbD k), true⟩ : Latch)]
    (9 ≤ j → j ≤ 13 → (busWrite p .p4 a (busWord d b))[j]? = some x → failed .p4 = half) ∧
    (5 ≤ j → j ≤ 6 → (busWrite p .i2c a (busWord d b))[j]? = some x → failed .i2c = half) ∧
    ∀ u l : Latch, pairNibbles (half ++ [u, l]) = half.map (fun h => (h, u)) ∧ halfByteHeld (half ++ [u, l]) = true

/-- R201: what the LCD latches of a successful init, on each transport and from any power-on value of the expander. On I2C the first
payload makes one more event when E was high, and may make one when E was unknown (under TwoByte it raises E and makes none). -/
def Obligations.InitLatches : Prop :=
  ∀ (p : Params) (a : Addr7), p.expMap.wf = true →
    let run := fun (t : Transport) (o : XVal Byte) =>
      latchesFrom p t .allX o ((expandMicros p t a (initSeq t emrAtConstruction)).map okEvent)
    let nib := fun (n : Nibble) => (⟨.L, [3, 2, 1, 0].map fun j => bitLevel (n.getLsbD j), true⟩ : Latch)
    let byte := fun (b : Byte) => (⟨.L, [7, 6, 5, 4, 3, 2, 1, 0].map fun j => bitLevel (b.getLsbD j), true⟩ : Latch)
    let path4 := [3#4, 3#4, 3#4, 2#4, 2#4, 8#4, 0#4, 0xE#4, 0#4, 1#4, 0#4, 6#4, 8#4, 0#4].map nib
    (∀ o, run .p8 o = [0x30#8, 0x38#8, 0x0E#8, 0x01#8, 0x07#8, 0x06#8].map byte ∧ run .p4 o = path4) ∧
    (∀ v, enLow p v = true → run .i2c (.val v) = path4) ∧
    (p.nibbleSeq = .threeByte → (∀ v, enLow p v = false → ∃ first, first.certain = true ∧ run .i2c (.val v) = first :: path4) ∧
      ∃ first, first.certain = false ∧ run .i2c .x = first :: path4) ∧
    (p.nibbleSeq = .twoByte → ∀ o, run .i2c o = path4)

/-- R200: the bus words, the listed waits, the enable pulses (on I2C the payloads that raise EN) and the actions of the init lists. -/
def Obligations.InitListSizes : Prop :=
  ∀ (p : Params) (a : Addr7) (e : BitVec 2), p.expMap.wf = true →
    let list := fun (t : Transport) => expandMicros p t a (initSeq t e)
    let raises := fun (x : Action) => match x with
      | .i2cTx _ v => !enLow p v
      | _ => decide (x = .drive .en .H)
    (wordsOf (initSeq .p4 e)).length = 7 ∧ (wordsOf (initSeq .i2c e)).length = 7 ∧ (wordsOf (initSeq .p8 e)).length = 6 ∧
    (initSeq .p4 e).length = 7 + 8 ∧ (initSeq .i2c e).length = 7 + 8 ∧ (initSeq .p8 e).length = 6 + 7 ∧
    ((list .p4).filter raises).length = 14 ∧ ((list .i2c).filter raises).length = 14 ∧ ((list .p8).filter raises).length = 6 ∧
    (list .p4).length = 127 ∧ (list .p8).length = 85 ∧
    (list .i2c).length = (match p.nibbleSeq with
      | .threeByte => 78
      | .twoByte => 64)

/-- R260, the minimum totals: the sums of the bounds of the waits of each init list, and of every host operation that is accepted, on
every transport: T_CMD, or T_CLEAR for `clear` and T_HOME for `reset`, plus one pulse on P8 and two on P4 and I2C. `write_char` is an
accepted `write_byte`. -/
def Obligations.MinimumWaits : Prop :=
  (∀ (p : Params) (a : Addr7) (e : BitVec 2) (x y : Nat), p.tEnPw = .val x → p.tPost = .val y →
    totalWait p (expandMicros p .p4 a (initSeq .p4 e)) = .val (20600 + 14 * (x + y)) ∧
    totalWait p (expandMicros p .i2c a (initSeq .i2c e)) = .val (20600 + 14 * (x + y)) ∧
    totalWait p (expandMicros p .p8 a (initSeq .p8 e)) = .val (20500 + 6 * (x + y))) ∧
  ∀ (i : Instr) (s t : State) (x y : Nat), (i.kind = .operation ∨ ∃ c, i = .writeChar c) →
    s.params.tEnPw = .val x → s.params.tPost = .val y → exec i s = .next t →
    let tail := match i with
      | .clear => s.params.tClear
      | .reset => s.params.tHome
      | _ => 100
    let pulses := match readTsel s with
      | .p8 => 1
      | .p4 => 2
      | .i2c => 2
    totalWait s.params t.acts = .val (tail + pulses * (x + y))

/-- R79, what is never emitted: every request and every bus word the model accepts loads only bus words that R79 does not exclude,
and an operation loads exactly one (R151). That a bus word or an init literal joins the running request's list is the model's choice
(log 8). -/
def Obligations.OnlyEmittableWords : Prop :=
  ∀ (i : Instr) (s t : State), exec i s = .next t →
    ∃ ms, (∀ w ∈ wordsOf ms, emittableWord w = true) ∧
      (i.kind = .operation → (wordsOf ms).length = 1 ∧ t.acts = expand s ms) ∧
      (i.kind = .construction → t.acts = expand t ms) ∧
      (i.kind = .pseudo → t.acts = expand s ms ∨ t.acts = s.acts) ∧
      (i.kind = .busWord ∨ i.kind = .initLiteral → t.acts = s.acts ++ expand s ms)
end

