-- ==== Sys2Proof/Laws/State.lean ====
section
/-! SUPPORT. Laws/State.lean: one lemma per field per named update of the state. -/

namespace Sys2Proof.Machine

/-! ## Pins -/

theorem Pins.get_set_same (ps : Pins) (p : Pin) (l : Level) : (ps.set p l).get p = l := by cases p <;> rfl

theorem Pins.get_set_of_ne (ps : Pins) (p q : Pin) (l : Level) (h : p ≠ q) : (ps.set p l).get q = ps.get q := by
  cases p <;> cases q <;> first | rfl | exact absurd rfl h

@[simp] theorem Pins.get_allX (p : Pin) : Pins.allX.get p = .X := by cases p <;> rfl

/-! ## applyAction, action by action -/

@[simp] theorem applyAction_drive (s : State) (p : Pin) (l : Drv) :
    applyAction s (.drive p l) = { s with pins := s.pins.set p l.level } := rfl

@[simp] theorem applyAction_i2cTx (s : State) (a : Addr7) (v : Byte) :
    applyAction s (.i2cTx a v) = { s with out := .val v } := rfl

@[simp] theorem applyAction_wait (s : State) (t : Duration) : applyAction s (.wait t) = s := rfl

@[simp] theorem applyAction_setEmr (s : State) (v : BitVec 2) : applyAction s (.setEmr v) = { s with emr := .val v } := rfl

@[simp] theorem applyAction_setDmr (s : State) (v : BitVec 3) : applyAction s (.setDmr v) = { s with dmr := .val v } := rfl

/-! ## drawn -/

@[simp] theorem drawn_life (s : State) : (drawn s).life = s.life := rfl
@[simp] theorem drawn_tsel (s : State) : (drawn s).tsel = s.tsel := rfl
@[simp] theorem drawn_i2cAddr (s : State) : (drawn s).i2cAddr = s.i2cAddr := rfl
@[simp] theorem drawn_emr (s : State) : (drawn s).emr = s.emr := rfl
@[simp] theorem drawn_dmr (s : State) : (drawn s).dmr = s.dmr := rfl
@[simp] theorem drawn_pins (s : State) : (drawn s).pins = s.pins := rfl
@[simp] theorem drawn_out (s : State) : (drawn s).out = s.out := rfl
@[simp] theorem drawn_busy (s : State) : (drawn s).busy = s.busy := rfl
@[simp] theorem drawn_pc (s : State) : (drawn s).pc = s.pc := rfl
@[simp] theorem drawn_acts (s : State) : (drawn s).acts = s.acts := rfl
@[simp] theorem drawn_resp (s : State) : (drawn s).resp = s.resp := rfl
@[simp] theorem drawn_params (s : State) : (drawn s).params = s.params := rfl
@[simp] theorem drawn_trace (s : State) : (drawn s).trace = s.trace := rfl
@[simp] theorem drawn_responses (s : State) : (drawn s).responses = s.responses := rfl
@[simp] theorem drawn_env (s : State) : (drawn s).env = s.env.tail := rfl
@[simp] theorem drawn_draws (s : State) : (drawn s).draws = s.draws + 1 := rfl
@[simp] theorem drawn_hung (s : State) : (drawn s).hung = s.hung := rfl
@[simp] theorem drawn_program (s : State) : (drawn s).program = s.program := rfl
@[simp] theorem drawn_pending (s : State) : (drawn s).pending = s.pending := rfl
@[simp] theorem drawn_results (s : State) : (drawn s).results = s.results := rfl
@[simp] theorem drawn_busPort (s : State) : (drawn s).busPort = s.busPort := rfl

/-! ## afterAnswer -/

@[simp] theorem afterAnswer_life (s : State) (a : Action) : (afterAnswer s a).life = s.life := by unfold afterAnswer; split <;> rfl
@[simp] theorem afterAnswer_tsel (s : State) (a : Action) : (afterAnswer s a).tsel = s.tsel := by unfold afterAnswer; split <;> rfl
@[simp] theorem afterAnswer_i2cAddr (s : State) (a : Action) : (afterAnswer s a).i2cAddr = s.i2cAddr := by unfold afterAnswer; split <;> rfl
@[simp] theorem afterAnswer_emr (s : State) (a : Action) : (afterAnswer s a).emr = s.emr := by unfold afterAnswer; split <;> rfl
@[simp] theorem afterAnswer_dmr (s : State) (a : Action) : (afterAnswer s a).dmr = s.dmr := by unfold afterAnswer; split <;> rfl
@[simp] theorem afterAnswer_pins (s : State) (a : Action) : (afterAnswer s a).pins = s.pins := by unfold afterAnswer; split <;> rfl
@[simp] theorem afterAnswer_out (s : State) (a : Action) : (afterAnswer s a).out = s.out := by unfold afterAnswer; split <;> rfl
@[simp] theorem afterAnswer_busy (s : State) (a : Action) : (afterAnswer s a).busy = s.busy := by unfold afterAnswer; split <;> rfl
@[simp] theorem afterAnswer_pc (s : State) (a : Action) : (afterAnswer s a).pc = s.pc := by unfold afterAnswer; split <;> rfl
@[simp] theorem afterAnswer_acts (s : State) (a : Action) : (afterAnswer s a).acts = s.acts := by unfold afterAnswer; split <;> rfl
@[simp] theorem afterAnswer_resp (s : State) (a : Action) : (afterAnswer s a).resp = s.resp := by unfold afterAnswer; split <;> rfl
@[simp] theorem afterAnswer_params (s : State) (a : Action) : (afterAnswer s a).params = s.params := by unfold afterAnswer; split <;> rfl
@[simp] theorem afterAnswer_trace (s : State) (a : Action) : (afterAnswer s a).trace = s.trace := by unfold afterAnswer; split <;> rfl
@[simp] theorem afterAnswer_responses (s : State) (a : Action) : (afterAnswer s a).responses = s.responses := by unfold afterAnswer; split <;> rfl
@[simp] theorem afterAnswer_hung (s : State) (a : Action) : (afterAnswer s a).hung = s.hung := by unfold afterAnswer; split <;> rfl
@[simp] theorem afterAnswer_program (s : State) (a : Action) : (afterAnswer s a).program = s.program := by unfold afterAnswer; split <;> rfl
@[simp] theorem afterAnswer_pending (s : State) (a : Action) : (afterAnswer s a).pending = s.pending := by unfold afterAnswer; split <;> rfl
@[simp] theorem afterAnswer_results (s : State) (a : Action) : (afterAnswer s a).results = s.results := by unfold afterAnswer; split <;> rfl
@[simp] theorem afterAnswer_busPort (s : State) (a : Action) : (afterAnswer s a).busPort = s.busPort := by unfold afterAnswer; split <;> rfl

/-! ## applyAction -/

@[simp] theorem applyAction_life (s : State) (a : Action) : (applyAction s a).life = s.life := by cases a <;> rfl
@[simp] theorem applyAction_tsel (s : State) (a : Action) : (applyAction s a).tsel = s.tsel := by cases a <;> rfl
@[simp] theorem applyAction_i2cAddr (s : State) (a : Action) : (applyAction s a).i2cAddr = s.i2cAddr := by cases a <;> rfl
@[simp] theorem applyAction_busy (s : State) (a : Action) : (applyAction s a).busy = s.busy := by cases a <;> rfl
@[simp] theorem applyAction_pc (s : State) (a : Action) : (applyAction s a).pc = s.pc := by cases a <;> rfl
@[simp] theorem applyAction_acts (s : State) (a : Action) : (applyAction s a).acts = s.acts := by cases a <;> rfl
@[simp] theorem applyAction_resp (s : State) (a : Action) : (applyAction s a).resp = s.resp := by cases a <;> rfl
@[simp] theorem applyAction_params (s : State) (a : Action) : (applyAction s a).params = s.params := by cases a <;> rfl
@[simp] theorem applyAction_trace (s : State) (a : Action) : (applyAction s a).trace = s.trace := by cases a <;> rfl
@[simp] theorem applyAction_responses (s : State) (a : Action) : (applyAction s a).responses = s.responses := by cases a <;> rfl
@[simp] theorem applyAction_env (s : State) (a : Action) : (applyAction s a).env = s.env := by cases a <;> rfl
@[simp] theorem applyAction_draws (s : State) (a : Action) : (applyAction s a).draws = s.draws := by cases a <;> rfl
@[simp] theorem applyAction_hung (s : State) (a : Action) : (applyAction s a).hung = s.hung := by cases a <;> rfl
@[simp] theorem applyAction_program (s : State) (a : Action) : (applyAction s a).program = s.program := by cases a <;> rfl
@[simp] theorem applyAction_pending (s : State) (a : Action) : (applyAction s a).pending = s.pending := by cases a <;> rfl
@[simp] theorem applyAction_results (s : State) (a : Action) : (applyAction s a).results = s.results := by cases a <;> rfl
@[simp] theorem applyAction_busPort (s : State) (a : Action) : (applyAction s a).busPort = s.busPort := by cases a <;> rfl

/-! ## recordEvent -/

@[simp] theorem recordEvent_life (s : State) (a : Action) (o : Answer) : (recordEvent s a o).life = s.life := rfl
@[simp] theorem recordEvent_tsel (s : State) (a : Action) (o : Answer) : (recordEvent s a o).tsel = s.tsel := rfl
@[simp] theorem recordEvent_i2cAddr (s : State) (a : Action) (o : Answer) : (recordEvent s a o).i2cAddr = s.i2cAddr := rfl
@[simp] theorem recordEvent_emr (s : State) (a : Action) (o : Answer) : (recordEvent s a o).emr = s.emr := rfl
@[simp] theorem recordEvent_dmr (s : State) (a : Action) (o : Answer) : (recordEvent s a o).dmr = s.dmr := rfl
@[simp] theorem recordEvent_pins (s : State) (a : Action) (o : Answer) : (recordEvent s a o).pins = s.pins := rfl
@[simp] theorem recordEvent_out (s : State) (a : Action) (o : Answer) : (recordEvent s a o).out = s.out := rfl
@[simp] theorem recordEvent_busy (s : State) (a : Action) (o : Answer) : (recordEvent s a o).busy = s.busy := rfl
@[simp] theorem recordEvent_pc (s : State) (a : Action) (o : Answer) : (recordEvent s a o).pc = s.pc := rfl
@[simp] theorem recordEvent_acts (s : State) (a : Action) (o : Answer) : (recordEvent s a o).acts = s.acts := rfl
@[simp] theorem recordEvent_resp (s : State) (a : Action) (o : Answer) : (recordEvent s a o).resp = s.resp := rfl
@[simp] theorem recordEvent_params (s : State) (a : Action) (o : Answer) : (recordEvent s a o).params = s.params := rfl
@[simp] theorem recordEvent_trace (s : State) (a : Action) (o : Answer) : (recordEvent s a o).trace = s.trace ++ [⟨a, o⟩] := rfl
@[simp] theorem recordEvent_responses (s : State) (a : Action) (o : Answer) : (recordEvent s a o).responses = s.responses := rfl
@[simp] theorem recordEvent_env (s : State) (a : Action) (o : Answer) : (recordEvent s a o).env = s.env := rfl
@[simp] theorem recordEvent_draws (s : State) (a : Action) (o : Answer) : (recordEvent s a o).draws = s.draws := rfl
@[simp] theorem recordEvent_hung (s : State) (a : Action) (o : Answer) : (recordEvent s a o).hung = s.hung := rfl
@[simp] theorem recordEvent_program (s : State) (a : Action) (o : Answer) : (recordEvent s a o).program = s.program := rfl
@[simp] theorem recordEvent_pending (s : State) (a : Action) (o : Answer) : (recordEvent s a o).pending = s.pending := rfl
@[simp] theorem recordEvent_results (s : State) (a : Action) (o : Answer) : (recordEvent s a o).results = s.results := rfl
@[simp] theorem recordEvent_busPort (s : State) (a : Action) (o : Answer) : (recordEvent s a o).busPort = s.busPort := rfl

/-! ## endRequest -/

@[simp] theorem endRequest_life (s : State) (r : Resp) : (endRequest s r).life = lifeAtEnd s.life (decide (r = .ok)) := rfl
@[simp] theorem endRequest_tsel (s : State) (r : Resp) : (endRequest s r).tsel = s.tsel := rfl
@[simp] theorem endRequest_i2cAddr (s : State) (r : Resp) : (endRequest s r).i2cAddr = s.i2cAddr := rfl
@[simp] theorem endRequest_emr (s : State) (r : Resp) : (endRequest s r).emr = s.emr := rfl
@[simp] theorem endRequest_dmr (s : State) (r : Resp) : (endRequest s r).dmr = s.dmr := rfl
@[simp] theorem endRequest_pins (s : State) (r : Resp) : (endRequest s r).pins = s.pins := rfl
@[simp] theorem endRequest_out (s : State) (r : Resp) : (endRequest s r).out = s.out := rfl
@[simp] theorem endRequest_busy (s : State) (r : Resp) : (endRequest s r).busy = false := rfl
@[simp] theorem endRequest_pc (s : State) (r : Resp) : (endRequest s r).pc = 0 := rfl
@[simp] theorem endRequest_acts (s : State) (r : Resp) : (endRequest s r).acts = [] := rfl
@[simp] theorem endRequest_resp (s : State) (r : Resp) : (endRequest s r).resp = r := rfl
@[simp] theorem endRequest_params (s : State) (r : Resp) : (endRequest s r).params = s.params := rfl
@[simp] theorem endRequest_trace (s : State) (r : Resp) : (endRequest s r).trace = s.trace := rfl
@[simp] theorem endRequest_responses (s : State) (r : Resp) : (endRequest s r).responses = s.responses ++ [r] := rfl
@[simp] theorem endRequest_env (s : State) (r : Resp) : (endRequest s r).env = s.env := rfl
@[simp] theorem endRequest_draws (s : State) (r : Resp) : (endRequest s r).draws = s.draws := rfl
@[simp] theorem endRequest_hung (s : State) (r : Resp) : (endRequest s r).hung = s.hung := rfl
@[simp] theorem endRequest_program (s : State) (r : Resp) : (endRequest s r).program = s.program := rfl
@[simp] theorem endRequest_pending (s : State) (r : Resp) : (endRequest s r).pending = s.pending := rfl
@[simp] theorem endRequest_results (s : State) (r : Resp) : (endRequest s r).results = s.results := rfl
@[simp] theorem endRequest_busPort (s : State) (r : Resp) : (endRequest s r).busPort = s.busPort := rfl

/-! ## hostReceive -/

@[simp] theorem hostReceive_life (s : State) (r : Resp) : (hostReceive s r).life = s.life := by unfold hostReceive; split <;> (try split) <;> rfl
@[simp] theorem hostReceive_tsel (s : State) (r : Resp) : (hostReceive s r).tsel = s.tsel := by unfold hostReceive; split <;> (try split) <;> rfl
@[simp] theorem hostReceive_i2cAddr (s : State) (r : Resp) : (hostReceive s r).i2cAddr = s.i2cAddr := by unfold hostReceive; split <;> (try split) <;> rfl
@[simp] theorem hostReceive_emr (s : State) (r : Resp) : (hostReceive s r).emr = s.emr := by unfold hostReceive; split <;> (try split) <;> rfl
@[simp] theorem hostReceive_dmr (s : State) (r : Resp) : (hostReceive s r).dmr = s.dmr := by unfold hostReceive; split <;> (try split) <;> rfl
@[simp] theorem hostReceive_pins (s : State) (r : Resp) : (hostReceive s r).pins = s.pins := by unfold hostReceive; split <;> (try split) <;> rfl
@[simp] theorem hostReceive_out (s : State) (r : Resp) : (hostReceive s r).out = s.out := by unfold hostReceive; split <;> (try split) <;> rfl
@[simp] theorem hostReceive_busy (s : State) (r : Resp) : (hostReceive s r).busy = s.busy := by unfold hostReceive; split <;> (try split) <;> rfl
@[simp] theorem hostReceive_pc (s : State) (r : Resp) : (hostReceive s r).pc = s.pc := by unfold hostReceive; split <;> (try split) <;> rfl
@[simp] theorem hostReceive_acts (s : State) (r : Resp) : (hostReceive s r).acts = s.acts := by unfold hostReceive; split <;> (try split) <;> rfl
@[simp] theorem hostReceive_resp (s : State) (r : Resp) : (hostReceive s r).resp = s.resp := by unfold hostReceive; split <;> (try split) <;> rfl
@[simp] theorem hostReceive_params (s : State) (r : Resp) : (hostReceive s r).params = s.params := by unfold hostReceive; split <;> (try split) <;> rfl
@[simp] theorem hostReceive_trace (s : State) (r : Resp) : (hostReceive s r).trace = s.trace := by unfold hostReceive; split <;> (try split) <;> rfl
@[simp] theorem hostReceive_responses (s : State) (r : Resp) : (hostReceive s r).responses = s.responses := by unfold hostReceive; split <;> (try split) <;> rfl
@[simp] theorem hostReceive_env (s : State) (r : Resp) : (hostReceive s r).env = s.env := by unfold hostReceive; split <;> (try split) <;> rfl
@[simp] theorem hostReceive_draws (s : State) (r : Resp) : (hostReceive s r).draws = s.draws := by unfold hostReceive; split <;> (try split) <;> rfl
@[simp] theorem hostReceive_hung (s : State) (r : Resp) : (hostReceive s r).hung = s.hung := by unfold hostReceive; split <;> (try split) <;> rfl
@[simp] theorem hostReceive_program (s : State) (r : Resp) : (hostReceive s r).program = s.program := by unfold hostReceive; split <;> (try split) <;> rfl
@[simp] theorem hostReceive_busPort (s : State) (r : Resp) : (hostReceive s r).busPort = s.busPort := by unfold hostReceive; split <;> (try split) <;> rfl

/-! ## finish -/

@[simp] theorem finish_life (s : State) (r : Resp) : (finish s r).life = lifeAtEnd s.life (decide (r = .ok)) := by simp [finish]
@[simp] theorem finish_tsel (s : State) (r : Resp) : (finish s r).tsel = s.tsel := by simp [finish]
@[simp] theorem finish_i2cAddr (s : State) (r : Resp) : (finish s r).i2cAddr = s.i2cAddr := by simp [finish]
@[simp] theorem finish_emr (s : State) (r : Resp) : (finish s r).emr = s.emr := by simp [finish]
@[simp] theorem finish_dmr (s : State) (r : Resp) : (finish s r).dmr = s.dmr := by simp [finish]
@[simp] theorem finish_pins (s : State) (r : Resp) : (finish s r).pins = s.pins := by simp [finish]
@[simp] theorem finish_out (s : State) (r : Resp) : (finish s r).out = s.out := by simp [finish]
@[simp] theorem finish_busy (s : State) (r : Resp) : (finish s r).busy = false := by simp [finish]
@[simp] theorem finish_pc (s : State) (r : Resp) : (finish s r).pc = 0 := by simp [finish]
@[simp] theorem finish_acts (s : State) (r : Resp) : (finish s r).acts = [] := by simp [finish]
@[simp] theorem finish_resp (s : State) (r : Resp) : (finish s r).resp = r := by simp [finish]
@[simp] theorem finish_params (s : State) (r : Resp) : (finish s r).params = s.params := by simp [finish]
@[simp] theorem finish_trace (s : State) (r : Resp) : (finish s r).trace = s.trace := by simp [finish]
@[simp] theorem finish_responses (s : State) (r : Resp) : (finish s r).responses = s.responses ++ [r] := by simp [finish]
@[simp] theorem finish_env (s : State) (r : Resp) : (finish s r).env = s.env := by simp [finish]
@[simp] theorem finish_draws (s : State) (r : Resp) : (finish s r).draws = s.draws := by simp [finish]
@[simp] theorem finish_hung (s : State) (r : Resp) : (finish s r).hung = s.hung := by simp [finish]
@[simp] theorem finish_program (s : State) (r : Resp) : (finish s r).program = s.program := by simp [finish]
@[simp] theorem finish_busPort (s : State) (r : Resp) : (finish s r).busPort = s.busPort := by simp [finish]

/-! ## completeAction -/

@[simp] theorem completeAction_life (s : State) (a : Action) : (completeAction s a).life = s.life := by simp [completeAction]
@[simp] theorem completeAction_tsel (s : State) (a : Action) : (completeAction s a).tsel = s.tsel := by simp [completeAction]
@[simp] theorem completeAction_i2cAddr (s : State) (a : Action) : (completeAction s a).i2cAddr = s.i2cAddr := by simp [completeAction]
@[simp] theorem completeAction_emr (s : State) (a : Action) : (completeAction s a).emr = (applyAction s a).emr := by simp [completeAction]
@[simp] theorem completeAction_dmr (s : State) (a : Action) : (completeAction s a).dmr = (applyAction s a).dmr := by simp [completeAction]
@[simp] theorem completeAction_pins (s : State) (a : Action) : (completeAction s a).pins = (applyAction s a).pins := by simp [completeAction]
@[simp] theorem completeAction_out (s : State) (a : Action) : (completeAction s a).out = (applyAction s a).out := by simp [completeAction]
@[simp] theorem completeAction_busy (s : State) (a : Action) : (completeAction s a).busy = s.busy := by simp [completeAction]
@[simp] theorem completeAction_pc (s : State) (a : Action) : (completeAction s a).pc = s.pc + 1 := by simp [completeAction]
@[simp] theorem completeAction_acts (s : State) (a : Action) : (completeAction s a).acts = s.acts := by simp [completeAction]
@[simp] theorem completeAction_resp (s : State) (a : Action) : (completeAction s a).resp = s.resp := by simp [completeAction]
@[simp] theorem completeAction_params (s : State) (a : Action) : (completeAction s a).params = s.params := by simp [completeAction]
@[simp] theorem completeAction_trace (s : State) (a : Action) : (completeAction s a).trace = s.trace ++ [⟨a, .ok⟩] := by simp [completeAction]
@[simp] theorem completeAction_responses (s : State) (a : Action) : (completeAction s a).responses = s.responses := by simp [completeAction]
@[simp] theorem completeAction_env (s : State) (a : Action) : (completeAction s a).env = s.env := by simp [completeAction]
@[simp] theorem completeAction_draws (s : State) (a : Action) : (completeAction s a).draws = s.draws := by simp [completeAction]
@[simp] theorem completeAction_hung (s : State) (a : Action) : (completeAction s a).hung = s.hung := by simp [completeAction]
@[simp] theorem completeAction_program (s : State) (a : Action) : (completeAction s a).program = s.program := by simp [completeAction]
@[simp] theorem completeAction_pending (s : State) (a : Action) : (completeAction s a).pending = s.pending := by simp [completeAction]
@[simp] theorem completeAction_results (s : State) (a : Action) : (completeAction s a).results = s.results := by simp [completeAction]
@[simp] theorem completeAction_busPort (s : State) (a : Action) : (completeAction s a).busPort = s.busPort := by simp [completeAction]

/-! ## errorEntry -/

@[simp] theorem errorEntry_life (s : State) (a : Action) (took : Bool) : (errorEntry s a took).life = lifeAtEnd s.life false := by cases took <;> simp [errorEntry, finish, hostReceive, endRequest, recordEvent]
@[simp] theorem errorEntry_tsel (s : State) (a : Action) (took : Bool) : (errorEntry s a took).tsel = s.tsel := by cases took <;> simp [errorEntry, finish, hostReceive, endRequest, recordEvent]
@[simp] theorem errorEntry_i2cAddr (s : State) (a : Action) (took : Bool) : (errorEntry s a took).i2cAddr = s.i2cAddr := by cases took <;> simp [errorEntry, finish, hostReceive, endRequest, recordEvent]
@[simp] theorem errorEntry_emr (s : State) (a : Action) (took : Bool) : (errorEntry s a took).emr = (if took then applyAction s a else s).emr := by cases took <;> simp [errorEntry, finish, hostReceive, endRequest, recordEvent]
@[simp] theorem errorEntry_dmr (s : State) (a : Action) (took : Bool) : (errorEntry s a took).dmr = (if took then applyAction s a else s).dmr := by cases took <;> simp [errorEntry, finish, hostReceive, endRequest, recordEvent]
@[simp] theorem errorEntry_pins (s : State) (a : Action) (took : Bool) : (errorEntry s a took).pins = (if took then applyAction s a else s).pins := by cases took <;> simp [errorEntry, finish, hostReceive, endRequest, recordEvent]
@[simp] theorem errorEntry_out (s : State) (a : Action) (took : Bool) : (errorEntry s a took).out = (if took then applyAction s a else s).out := by cases took <;> simp [errorEntry, finish, hostReceive, endRequest, recordEvent]
@[simp] theorem errorEntry_busy (s : State) (a : Action) (took : Bool) : (errorEntry s a took).busy = false := by cases took <;> simp [errorEntry, finish, hostReceive, endRequest, recordEvent]
@[simp] theorem errorEntry_pc (s : State) (a : Action) (took : Bool) : (errorEntry s a took).pc = 0 := by cases took <;> simp [errorEntry, finish, hostReceive, endRequest, recordEvent]
@[simp] theorem errorEntry_acts (s : State) (a : Action) (took : Bool) : (errorEntry s a took).acts = [] := by cases took <;> simp [errorEntry, finish, hostReceive, endRequest, recordEvent]
@[simp] theorem errorEntry_resp (s : State) (a : Action) (took : Bool) : (errorEntry s a took).resp = .err := by cases took <;> simp [errorEntry, finish, hostReceive, endRequest, recordEvent]
@[simp] theorem errorEntry_params (s : State) (a : Action) (took : Bool) : (errorEntry s a took).params = s.params := by cases took <;> simp [errorEntry, finish, hostReceive, endRequest, recordEvent]
@[simp] theorem errorEntry_trace (s : State) (a : Action) (took : Bool) : (errorEntry s a took).trace = s.trace ++ [⟨a, .err took⟩] := by cases took <;> simp [errorEntry, finish, hostReceive, endRequest, recordEvent]
@[simp] theorem errorEntry_responses (s : State) (a : Action) (took : Bool) : (errorEntry s a took).responses = s.responses ++ [.err] := by cases took <;> simp [errorEntry, finish, hostReceive, endRequest, recordEvent]
@[simp] theorem errorEntry_env (s : State) (a : Action) (took : Bool) : (errorEntry s a took).env = s.env := by cases took <;> simp [errorEntry, finish, hostReceive, endRequest, recordEvent]
@[simp] theorem errorEntry_draws (s : State) (a : Action) (took : Bool) : (errorEntry s a took).draws = s.draws := by cases took <;> simp [errorEntry, finish, hostReceive, endRequest, recordEvent]
@[simp] theorem errorEntry_hung (s : State) (a : Action) (took : Bool) : (errorEntry s a took).hung = s.hung := by cases took <;> simp [errorEntry, finish, hostReceive, endRequest, recordEvent]
@[simp] theorem errorEntry_program (s : State) (a : Action) (took : Bool) : (errorEntry s a took).program = s.program := by cases took <;> simp [errorEntry, finish, hostReceive, endRequest, recordEvent]
@[simp] theorem errorEntry_pending (s : State) (a : Action) (took : Bool) : (errorEntry s a took).pending = [] := by cases took <;> simp [errorEntry, finish, hostReceive, endRequest, recordEvent]
@[simp] theorem errorEntry_results (s : State) (a : Action) (took : Bool) : (errorEntry s a took).results = s.results ++ [.err] := by cases took <;> simp [errorEntry, finish, hostReceive, endRequest, recordEvent]
@[simp] theorem errorEntry_busPort (s : State) (a : Action) (took : Bool) : (errorEntry s a took).busPort = s.busPort := by cases took <;> simp [errorEntry, finish, hostReceive, endRequest, recordEvent]

/-! ## hang -/

@[simp] theorem hang_life (s : State) (a : Action) : (hang s a).life = s.life := rfl
@[simp] theorem hang_tsel (s : State) (a : Action) : (hang s a).tsel = s.tsel := rfl
@[simp] theorem hang_i2cAddr (s : State) (a : Action) : (hang s a).i2cAddr = s.i2cAddr := rfl
@[simp] theorem hang_emr (s : State) (a : Action) : (hang s a).emr = s.emr := rfl
@[simp] theorem hang_dmr (s : State) (a : Action) : (hang s a).dmr = s.dmr := rfl
@[simp] theorem hang_pins (s : State) (a : Action) : (hang s a).pins = s.pins := rfl
@[simp] theorem hang_out (s : State) (a : Action) : (hang s a).out = s.out := rfl
@[simp] theorem hang_busy (s : State) (a : Action) : (hang s a).busy = s.busy := rfl
@[simp] theorem hang_pc (s : State) (a : Action) : (hang s a).pc = s.pc := rfl
@[simp] theorem hang_acts (s : State) (a : Action) : (hang s a).acts = s.acts := rfl
@[simp] theorem hang_resp (s : State) (a : Action) : (hang s a).resp = s.resp := rfl
@[simp] theorem hang_params (s : State) (a : Action) : (hang s a).params = s.params := rfl
@[simp] theorem hang_trace (s : State) (a : Action) : (hang s a).trace = s.trace ++ [⟨a, .hang⟩] := rfl
@[simp] theorem hang_responses (s : State) (a : Action) : (hang s a).responses = s.responses := rfl
@[simp] theorem hang_env (s : State) (a : Action) : (hang s a).env = s.env := rfl
@[simp] theorem hang_draws (s : State) (a : Action) : (hang s a).draws = s.draws := rfl
@[simp] theorem hang_hung (s : State) (a : Action) : (hang s a).hung = true := rfl
@[simp] theorem hang_program (s : State) (a : Action) : (hang s a).program = s.program := rfl
@[simp] theorem hang_pending (s : State) (a : Action) : (hang s a).pending = s.pending := rfl
@[simp] theorem hang_results (s : State) (a : Action) : (hang s a).results = s.results := rfl
@[simp] theorem hang_busPort (s : State) (a : Action) : (hang s a).busPort = s.busPort := rfl

/-! ## startRequest -/

@[simp] theorem startRequest_life (s : State) (as : List Action) : (startRequest s as).life = s.life := rfl
@[simp] theorem startRequest_tsel (s : State) (as : List Action) : (startRequest s as).tsel = s.tsel := rfl
@[simp] theorem startRequest_i2cAddr (s : State) (as : List Action) : (startRequest s as).i2cAddr = s.i2cAddr := rfl
@[simp] theorem startRequest_emr (s : State) (as : List Action) : (startRequest s as).emr = s.emr := rfl
@[simp] theorem startRequest_dmr (s : State) (as : List Action) : (startRequest s as).dmr = s.dmr := rfl
@[simp] theorem startRequest_pins (s : State) (as : List Action) : (startRequest s as).pins = s.pins := rfl
@[simp] theorem startRequest_out (s : State) (as : List Action) : (startRequest s as).out = s.out := rfl
@[simp] theorem startRequest_busy (s : State) (as : List Action) : (startRequest s as).busy = true := rfl
@[simp] theorem startRequest_pc (s : State) (as : List Action) : (startRequest s as).pc = 0 := rfl
@[simp] theorem startRequest_acts (s : State) (as : List Action) : (startRequest s as).acts = as := rfl
@[simp] theorem startRequest_resp (s : State) (as : List Action) : (startRequest s as).resp = .none := rfl
@[simp] theorem startRequest_params (s : State) (as : List Action) : (startRequest s as).params = s.params := rfl
@[simp] theorem startRequest_trace (s : State) (as : List Action) : (startRequest s as).trace = s.trace := rfl
@[simp] theorem startRequest_responses (s : State) (as : List Action) : (startRequest s as).responses = s.responses := rfl
@[simp] theorem startRequest_env (s : State) (as : List Action) : (startRequest s as).env = s.env := rfl
@[simp] theorem startRequest_draws (s : State) (as : List Action) : (startRequest s as).draws = s.draws := rfl
@[simp] theorem startRequest_hung (s : State) (as : List Action) : (startRequest s as).hung = s.hung := rfl
@[simp] theorem startRequest_program (s : State) (as : List Action) : (startRequest s as).program = s.program := rfl
@[simp] theorem startRequest_pending (s : State) (as : List Action) : (startRequest s as).pending = s.pending := rfl
@[simp] theorem startRequest_results (s : State) (as : List Action) : (startRequest s as).results = s.results := rfl
@[simp] theorem startRequest_busPort (s : State) (as : List Action) : (startRequest s as).busPort = s.busPort := rfl

/-! ## constructed -/

@[simp] theorem constructed_life (t : Transport) (addr : XVal Addr7) (s : State) : (constructed t addr s).life = .init := rfl
@[simp] theorem constructed_tsel (t : Transport) (addr : XVal Addr7) (s : State) : (constructed t addr s).tsel = .val t := rfl
@[simp] theorem constructed_i2cAddr (t : Transport) (addr : XVal Addr7) (s : State) : (constructed t addr s).i2cAddr = (match addr with | .val a => .val a | .x => s.i2cAddr) := rfl
@[simp] theorem constructed_emr (t : Transport) (addr : XVal Addr7) (s : State) : (constructed t addr s).emr = .val emrAtConstruction := rfl
@[simp] theorem constructed_dmr (t : Transport) (addr : XVal Addr7) (s : State) : (constructed t addr s).dmr = .val dmrAtConstruction := rfl
@[simp] theorem constructed_pins (t : Transport) (addr : XVal Addr7) (s : State) : (constructed t addr s).pins = s.pins := rfl
@[simp] theorem constructed_out (t : Transport) (addr : XVal Addr7) (s : State) : (constructed t addr s).out = s.out := rfl
@[simp] theorem constructed_busy (t : Transport) (addr : XVal Addr7) (s : State) : (constructed t addr s).busy = s.busy := rfl
@[simp] theorem constructed_pc (t : Transport) (addr : XVal Addr7) (s : State) : (constructed t addr s).pc = s.pc := rfl
@[simp] theorem constructed_acts (t : Transport) (addr : XVal Addr7) (s : State) : (constructed t addr s).acts = s.acts := rfl
@[simp] theorem constructed_resp (t : Transport) (addr : XVal Addr7) (s : State) : (constructed t addr s).resp = s.resp := rfl
@[simp] theorem constructed_params (t : Transport) (addr : XVal Addr7) (s : State) : (constructed t addr s).params = s.params := rfl
@[simp] theorem constructed_trace (t : Transport) (addr : XVal Addr7) (s : State) : (constructed t addr s).trace = s.trace := rfl
@[simp] theorem constructed_responses (t : Transport) (addr : XVal Addr7) (s : State) : (constructed t addr s).responses = s.responses := rfl
@[simp] theorem constructed_env (t : Transport) (addr : XVal Addr7) (s : State) : (constructed t addr s).env = s.env := rfl
@[simp] theorem constructed_draws (t : Transport) (addr : XVal Addr7) (s : State) : (constructed t addr s).draws = s.draws := rfl
@[simp] theorem constructed_hung (t : Transport) (addr : XVal Addr7) (s : State) : (constructed t addr s).hung = s.hung := rfl
@[simp] theorem constructed_program (t : Transport) (addr : XVal Addr7) (s : State) : (constructed t addr s).program = s.program := rfl
@[simp] theorem constructed_pending (t : Transport) (addr : XVal Addr7) (s : State) : (constructed t addr s).pending = s.pending := rfl
@[simp] theorem constructed_results (t : Transport) (addr : XVal Addr7) (s : State) : (constructed t addr s).results = s.results := rfl
@[simp] theorem constructed_busPort (t : Transport) (addr : XVal Addr7) (s : State) : (constructed t addr s).busPort = s.busPort := rfl

end Sys2Proof.Machine
end

