-- ==== Sys2Proof/Laws/Ops.lean ====
section
/-! SUPPORT. Laws/Ops.lean: for each shared operation, once, everything it can do. -/

namespace Sys2Proof.Machine

open Host (Outcome)

/-! ## Acceptance -/

/-- Accepting an operation, when the spec says it is accepted (42_controller_ops.md R150). -/
theorem acceptOp_of_ready {ms : List Micro} {s : State} (hl : s.life = .ready) (hb : s.busy = false) :
    acceptOp ms s = .next (startRequest s (expand s ms)) := by
  simp [acceptOp, hl, hb]

/-- All an accepted operation can be. -/
theorem acceptOp_next {ms : List Micro} {s t : State} (h : acceptOp ms s = .next t) :
    s.life = .ready ∧ s.busy = false ∧ t = startRequest s (expand s ms) := by
  unfold acceptOp at h
  split at h <;> try (cases h)
  split at h <;> cases h
  rename_i hl hb
  exact ⟨hl, by simpa using hb, rfl⟩

theorem acceptOp_ne_fault {ms : List Micro} {s : State} {f : Fault} : acceptOp ms s ≠ .fault f := by
  unfold acceptOp
  split <;> (try split) <;> nofun

/-- Accepting a construction, when the spec says it is accepted (43_init_sequencer.md R190). -/
theorem acceptConstruction_of_unbuilt {t : Transport} {addr : XVal Addr7} {q : BitVec 2 → List Micro} {s : State}
    (hl : s.life = .unbuilt) (hb : s.busy = false) :
    acceptConstruction t addr q s =
      .next (startRequest (constructed t addr s) (expand (constructed t addr s) (q emrAtConstruction))) := by
  simp [acceptConstruction, hl, hb, readEmr]

/-- All an accepted construction can be. -/
theorem acceptConstruction_next {t : Transport} {addr : XVal Addr7} {q : BitVec 2 → List Micro} {s u : State}
    (h : acceptConstruction t addr q s = .next u) :
    s.life = .unbuilt ∧ s.busy = false ∧
      u = startRequest (constructed t addr s) (expand (constructed t addr s) (q emrAtConstruction)) := by
  unfold acceptConstruction at h
  split at h <;> try (cases h)
  split at h <;> cases h
  rename_i hl hb
  exact ⟨hl, by simpa using hb, by simp [readEmr]⟩

theorem acceptConstruction_ne_fault {t : Transport} {addr : XVal Addr7} {q : BitVec 2 → List Micro} {s : State} {f : Fault} :
    acceptConstruction t addr q s ≠ .fault f := by
  unfold acceptConstruction
  split <;> (try split) <;> nofun

/-! ## Bus words -/

/-- When a request is running. -/
theorem requestRunning_iff {s : State} :
    requestRunning s = true ↔ s.busy = true ∧ (s.life = .init ∨ s.life = .ready) := by
  unfold requestRunning
  cases s.busy <;> cases s.life <;> simp

/-- All a bus word can do: nothing but to add its actions to the running request. -/
theorem issueWord_next {w : BusWord} {s t : State} (h : issueWord w s = .next t) :
    s.busy = true ∧ (s.life = .init ∨ s.life = .ready) ∧
      t = { s with acts := s.acts ++ wordActions s w } := by
  unfold issueWord at h
  split at h <;> cases h
  rename_i hr
  unfold requestRunning at hr
  cases hb : s.busy <;> cases hl : s.life <;> simp_all

theorem issueWord_of_running {w : BusWord} {s : State} (hb : s.busy = true) (hl : s.life = .init ∨ s.life = .ready) :
    issueWord w s = .next { s with acts := s.acts ++ wordActions s w } := by
  rcases hl with hl | hl <;> simp [issueWord, requestRunning, hb, hl]

theorem issueWord_ne_fault {w : BusWord} {s : State} {f : Fault} : issueWord w s ≠ .fault f := by
  unfold issueWord
  split <;> nofun

/-- All an init literal can do. -/
theorem issueInit_next {p8 p4 : Bool} {b : Byte} {s t : State} (h : issueInit p8 p4 b s = .next t) :
    s.life = .init ∧ sentOn p8 p4 (readTsel s) = true ∧ issueWord (busWord false b) s = .next t := by
  unfold issueInit at h
  split at h
  · rename_i hc
    exact ⟨hc.1, hc.2, h⟩
  · cases h

theorem issueInit_of_init {p8 p4 : Bool} {b : Byte} {s : State} (hl : s.life = .init)
    (hp : sentOn p8 p4 (readTsel s) = true) : issueInit p8 p4 b s = issueWord (busWord false b) s := by
  simp only [issueInit, hl, hp, and_self, ↓reduceIte]

theorem issueInit_ne_fault {p8 p4 : Bool} {b : Byte} {s : State} {f : Fault} : issueInit p8 p4 b s ≠ .fault f := by
  unfold issueInit
  split
  · exact issueWord_ne_fault
  · nofun

/-! ## exec, by the part of the table an instruction stands in -/

/-- A host operation that answers a next state was accepted, and its expansion fixes that state. -/
theorem exec_operation {i : Instr} {s t : State} (hk : i.kind = .operation) (h : exec i s = .next t) :
    s.life = .ready ∧ s.busy = false ∧ ∃ ms, t = startRequest s (expand s ms) := by
  cases i <;> simp only [Instr.kind, reduceCtorEq] at hk
  all_goals exact ⟨(acceptOp_next h).1, (acceptOp_next h).2.1, _, (acceptOp_next h).2.2⟩

/-- A construction that answers a next state was accepted, and its init sequence fixes that state. -/
theorem exec_construction {i : Instr} {s u : State} (hk : i.kind = .construction) (h : exec i s = .next u) :
    s.life = .unbuilt ∧ s.busy = false ∧ ∃ t addr, (t = .i2c → ∃ a, addr = .val a) ∧ (t ≠ .i2c → addr = .x) ∧
      u = startRequest (constructed t addr s)
        (expand (constructed t addr s) (initSeq t emrAtConstruction)) := by
  cases i <;> simp only [Instr.kind, reduceCtorEq] at hk
  all_goals
    refine ⟨(acceptConstruction_next h).1, (acceptConstruction_next h).2.1, _, _, ?_, ?_, (acceptConstruction_next h).2.2⟩
    all_goals simp

/-- A pseudo-instruction that answers a next state has either issued its first byte, or had none. -/
theorem exec_pseudo {i : Instr} {s t : State} (hk : i.kind = .pseudo) (h : exec i s = .next t) :
    t = { s with results := s.results ++ [.ok] } ∨
      ∃ b rest, s.life = .ready ∧ s.busy = false ∧
        t = startRequest { s with pending := rest } (expand s (dat b)) := by
  have bytes : ∀ seq, issueBytes seq s = .next t → t = { s with results := s.results ++ [.ok] } ∨
      ∃ b rest, s.life = .ready ∧ s.busy = false ∧
        t = startRequest { s with pending := rest } (expand s (dat b)) := by
    intro seq hq
    cases seq with
    | nil => cases hq; exact .inl rfl
    | cons b rest => exact .inr ⟨b, rest, acceptOp_next hq⟩
  cases i <;> simp only [Instr.kind, reduceCtorEq] at hk
  case writeChar c => exact .inr ⟨lowByte c, s.pending, acceptOp_next h⟩
  case writeBytes seq => exact bytes seq h
  case writeStr str => exact bytes (utf8 str) h

/-- A bus word or an init literal that answers a next state has added one bus word's actions to the running request. -/
theorem exec_word {i : Instr} {s t : State} (hk : i.kind = .busWord ∨ i.kind = .initLiteral) (h : exec i s = .next t) :
    s.busy = true ∧ (s.life = .init ∨ s.life = .ready) ∧
      ∃ w, t = { s with acts := s.acts ++ wordActions s w } := by
  cases i <;> simp only [Instr.kind, reduceCtorEq, or_self, or_false, or_true] at hk
  all_goals first
    | exact ⟨(issueWord_next h).1, (issueWord_next h).2.1, _, (issueWord_next h).2.2⟩
    | exact ⟨(issueWord_next (issueInit_next h).2.2).1, (issueWord_next (issueInit_next h).2.2).2.1, _,
        (issueWord_next (issueInit_next h).2.2).2.2⟩

/-- No instruction ends in a fault. -/
theorem exec_ne_fault {i : Instr} {s : State} {f : Fault} : exec i s ≠ .fault f := by
  have bytes : ∀ seq, issueBytes seq s ≠ .fault f := by
    intro seq
    cases seq
    · nofun
    · exact acceptOp_ne_fault
  cases i
  all_goals first
    | exact acceptOp_ne_fault
    | exact acceptConstruction_ne_fault
    | exact bytes _
    | exact issueWord_ne_fault
    | exact issueInit_ne_fault

/-! ## One action -/

/-- All one action can do: complete, fail, or never return (00_scope.md R10). -/
theorem runOne_cases (s : State) (a : Action) :
    runOne s a = completeAction (afterAnswer s a) a ∨
      (∃ took, fallible a = true ∧ runOne s a = errorEntry (drawn s) a took) ∨
      (fallible a = true ∧ runOne s a = hang (drawn s) a) := by
  unfold runOne answerFor afterAnswer
  cases hf : fallible a
  · exact .inl rfl
  · simp only [↓reduceIte]
    cases possibleAnswer s.params a (nextAnswer s)
    · exact .inl rfl
    · exact .inr (.inl ⟨_, trivial, rfl⟩)
    · exact .inr (.inr ⟨trivial, rfl⟩)

/-- All a step of the running request can do. -/
theorem runAction_cases (s : State) :
    (s.acts[s.pc]? = none ∧ runAction s = finish s .ok) ∨
      ∃ a, s.acts[s.pc]? = some a ∧ runAction s = runOne s a := by
  unfold runAction
  split
  · rename_i a h
    exact .inr ⟨a, h, rfl⟩
  · rename_i h
    exact .inl ⟨h, rfl⟩

/-! ## One step -/

/-- All a step that answers a next state can do: it runs an instruction that was fetched, or one action of the running request, or
the host has no further request. -/
theorem step_cases {s t : State} (h : step s = .next t) :
    s.hung = false ∧
      ((s.busy = true ∧ ∃ w rest i, s.busPort = w :: rest ∧ decodeBusLine w = .ok i ∧
          exec i { s with busPort := rest } = .next t) ∨
        (s.busy = true ∧ s.busPort = [] ∧ t = runAction s) ∨
        (s.busy = false ∧ ∃ b rest, s.pending = b :: rest ∧ exec (.writeByte b) { s with pending := rest } = .next t) ∨
        (s.busy = false ∧ s.pending = [] ∧ ∃ l rest i, s.program = l :: rest ∧ decodeHost l = .ok i ∧
          exec i { s with program := rest } = .next t) ∨
        (s.busy = false ∧ s.pending = [] ∧ s.program = [] ∧ t = s)) := by
  cases hh : s.hung
  case true => simp [step, nextMove, hh] at h
  refine ⟨rfl, ?_⟩
  cases hb : s.busy
  · cases hp : s.pending with
    | cons b rest =>
      simp only [step, nextMove, hh, hb, idleMove, hp, Bool.false_eq_true, ↓reduceIte] at h
      exact .inr (.inr (.inl ⟨rfl, b, rest, rfl, h⟩))
    | nil =>
      cases hq : s.program with
      | nil =>
        simp [step, nextMove, hh, hb, idleMove, hp, hq] at h
        exact .inr (.inr (.inr (.inr ⟨rfl, rfl, rfl, h.symm⟩)))
      | cons l rest =>
        cases hd : decodeHost l with
        | error e => simp [step, nextMove, hh, hb, idleMove, hp, hq, moveOfLine, hd] at h
        | ok i =>
          simp only [step, nextMove, hh, hb, idleMove, hp, hq, moveOfLine, hd, Bool.false_eq_true, ↓reduceIte] at h
          exact .inr (.inr (.inr (.inl ⟨rfl, rfl, l, rest, i, rfl, hd, h⟩)))
  · cases hw : s.busPort with
    | nil =>
      simp [step, nextMove, hh, hb, busyMove, hw] at h
      exact .inr (.inl ⟨rfl, rfl, h.symm⟩)
    | cons w rest =>
      cases hd : decodeBusLine w with
      | error e => simp [step, nextMove, hh, hb, busyMove, hw, moveOfLine, hd] at h
      | ok i =>
        simp only [step, nextMove, hh, hb, busyMove, hw, moveOfLine, hd, Bool.false_eq_true, ↓reduceIte] at h
        exact .inl ⟨rfl, w, rest, i, rfl, hd, h⟩

/-! ## Runs -/

/-- A run of two parts. -/
theorem steps_add {a b : Nat} {s t : State} (h : steps a s = .next t) : steps (a + b) s = steps b t := by
  induction a generalizing s with
  | zero => cases h; rw [Nat.zero_add]
  | succ a ih =>
    rw [Nat.succ_add_eq_add_succ a b]
    rw [show a + b.succ = (a + b) + 1 from rfl]
    simp only [steps] at h ⊢
    split at h
    · exact ih h
    · cases h
    · cases h

/-- One step more of a host's run. -/
theorem host_run_succ (M : Host.Core) (k : Nat) (s : M.State) :
    M.run (k + 1) s =
      match M.step s with
      | .next t => M.run k t
      | .fault f => .fault f
      | .refused r => .refused r := rfl

/-- The host's run of the machine is `steps`. -/
theorem core_run_eq_steps (k : Nat) (s : State) : core.run k s = steps k s := by
  induction k generalizing s with
  | zero => rfl
  | succ k ih =>
    refine (host_run_succ core k s).trans ?_
    rcases hs : step s with t | f | r
    · rw [show core.step s = .next t from hs]
      simp only [steps, hs]
      exact ih t
    · rw [show core.step s = .fault f from hs]
      simp only [steps, hs]
      rfl
    · rw [show core.step s = .refused r from hs]
      simp only [steps, hs]
      rfl

/-- While a request runs and no bus word waits, a step is one action of it. -/
theorem step_of_running {s : State} (h : Running s) : step s = .next (runAction s) := by
  obtain ⟨h1, h2, h3⟩ := h
  simp [step, nextMove, h1, h2, h3, busyMove]

end Sys2Proof.Machine
end

