-- ==== Sys2Proof/Laws/PerInstr.lean ====
section
/-! SUPPORT. Laws/PerInstr.lean: statements about the syntax, one lemma per constructor of Instr. Family `EncodingSpace`: the line an
instruction encodes to lies in the space its part of the opcode table names (20_memory.md R51 (e); 30_encoding.md R70, R76, R81,
R84). -/

namespace Sys2Proof.Laws.EncodingSpace

/-- The part of the opcode table a line belongs to, read off the line: `OP` 0x01 to 0x0C is an operation and 0x10 to 0x12 a
construction (30_encoding.md R76). -/
def lineKind : Line → Option Kind
  | .host (.request w) =>
    if 0x01 ≤ (reqOp w).toNat ∧ (reqOp w).toNat ≤ 0x0C then some .operation
    else if 0x10 ≤ (reqOp w).toNat ∧ (reqOp w).toNat ≤ 0x12 then some .construction
    else none
  | .host (.writeChar _) => some .pseudo
  | .host (.writeBytes _) => some .pseudo
  | .host (.writeStr _) => some .pseudo
  | .bus (.bus _) => some .busWord
  | .bus (.init _) => some .initLiteral

/-- The encoding of an instruction lies in the space of its kind. -/
def Statement (i : Instr) : Prop := lineKind (encode i) = some i.kind

@[simp] theorem reqOp_requestWord (op arg : Byte) : reqOp (requestWord op arg) = op := by
  ext j hj
  simp only [reqOp, requestWord, BitVec.getElem_extractLsb']
  exact BitVec.getLsbD_append.trans (by simp [hj])

@[simp] theorem reqArg_requestWord (op arg : Byte) : reqArg (requestWord op arg) = arg := by
  ext j hj
  simp only [reqArg, requestWord, BitVec.getElem_extractLsb']
  exact BitVec.getLsbD_append.trans (by simp [hj])

theorem clear : Statement .clear := rfl

theorem reset : Statement .reset := rfl

theorem setDisplayMode (display cursor blink : OnOff) : Statement (.setDisplayMode display cursor blink) := by
  simp [Statement, encode, lineKind, Instr.kind]

theorem setDisplay (v : OnOff) : Statement (.setDisplay v) := by
  simp [Statement, encode, lineKind, Instr.kind]

theorem setCursorVisibility (v : OnOff) : Statement (.setCursorVisibility v) := by
  simp [Statement, encode, lineKind, Instr.kind]

theorem setCursorBlink (v : OnOff) : Statement (.setCursorBlink v) := by
  simp [Statement, encode, lineKind, Instr.kind]

theorem setAutoscroll (shift : OnOff) : Statement (.setAutoscroll shift) := by
  simp [Statement, encode, lineKind, Instr.kind]

theorem setCursorMode (direction : MoveDirection) : Statement (.setCursorMode direction) := by
  simp [Statement, encode, lineKind, Instr.kind]

theorem setCursorPos (position : Byte) : Statement (.setCursorPos position) := by
  simp [Statement, encode, lineKind, Instr.kind]

theorem shiftCursor (direction : ShiftDirection) : Statement (.shiftCursor direction) := by
  simp [Statement, encode, lineKind, Instr.kind]

theorem shiftDisplay (direction : ShiftDirection) : Statement (.shiftDisplay direction) := by
  simp [Statement, encode, lineKind, Instr.kind]

theorem writeByte (b : Byte) : Statement (.writeByte b) := by
  simp [Statement, encode, lineKind, Instr.kind]

theorem new8bit : Statement .new8bit := rfl

theorem new4bit : Statement .new4bit := rfl

theorem newI2c (address : Addr7) : Statement (.newI2c address) := by
  simp [Statement, encode, lineKind, Instr.kind]

theorem writeChar (c : Scalar) : Statement (.writeChar c) := rfl

theorem writeBytes (seq : List Byte) : Statement (.writeBytes seq) := rfl

theorem writeStr (s : List Scalar) : Statement (.writeStr s) := rfl

theorem busClear : Statement .busClear := rfl

theorem busHome : Statement .busHome := rfl

theorem busEntry (md : MoveDirection) (ds : OnOff) : Statement (.busEntry md ds) := rfl

theorem busDispctl (disp cur blink : OnOff) : Statement (.busDispctl disp cur blink) := rfl

theorem busShift (tgt : ShiftTarget) (dir : ShiftDirection) : Statement (.busShift tgt dir) := rfl

theorem busSetddram (addr : Addr7) : Statement (.busSetddram addr) := rfl

theorem busData (b : Byte) : Statement (.busData b) := rfl

theorem init33 : Statement .init33 := rfl

theorem init32 : Statement .init32 := rfl

theorem init28 : Statement .init28 := rfl

theorem init30 : Statement .init30 := rfl

theorem init38 : Statement .init38 := rfl

theorem init0E : Statement .init0E := rfl

theorem init01 : Statement .init01 := rfl

theorem init07 : Statement .init07 := rfl

theorem init80 : Statement .init80 := rfl

end Sys2Proof.Laws.EncodingSpace
end

