-- ==== Sys2Proof/Laws/Transport.lean ====
section
/-! SUPPORT. Laws/Transport.lean: the small lemmas of bus words, nibbles, levels and action lists. -/

namespace Sys2Proof.Machine

/-! ## Bus words -/

@[simp] theorem isData_busWord (d : Bool) (b : Byte) : isData (busWord d b) = d := by
  revert b d; decide

@[simp] theorem busByte_busWord (d : Bool) (b : Byte) : busByte (busWord d b) = b := by
  revert b d; decide

/-- A bus word is its tag and its byte. -/
theorem busWord_eta (w : BusWord) : busWord (isData w) (busByte w) = w := by
  revert w; decide

/-- A byte is its upper nibble and its lower nibble. -/
theorem nibbles_eta (b : Byte) : upperNibble b ++ lowerNibble b = b := by
  revert b; decide

@[simp] theorem drv_level (b : Bool) : (drv b).level = bitLevel b := by
  cases b <;> rfl

/-! ## The setting encoders read the fields back -/

@[simp] theorem emrMd_emrOf (md : MoveDirection) (ds : OnOff) : emrMd (emrOf md ds) = md := by
  cases md <;> cases ds <;> rfl

@[simp] theorem emrDs_emrOf (md : MoveDirection) (ds : OnOff) : emrDs (emrOf md ds) = ds := by
  cases md <;> cases ds <;> rfl

@[simp] theorem dmrDisp_dmrOf (d c b : OnOff) : dmrDisp (dmrOf d c b) = d := by
  cases d <;> cases c <;> cases b <;> rfl

@[simp] theorem dmrCur_dmrOf (d c b : OnOff) : dmrCur (dmrOf d c b) = c := by
  cases d <;> cases c <;> cases b <;> rfl

@[simp] theorem dmrBlink_dmrOf (d c b : OnOff) : dmrBlink (dmrOf d c b) = b := by
  cases d <;> cases c <;> cases b <;> rfl

/-! ## The expander's lines -/

@[simp] theorem outLevel_x (k : Fin 8) : outLevel .x k = .X := rfl

@[simp] theorem outLevel_val (v : Byte) (k : Fin 8) : outLevel (.val v) k = bitLevel (v.getLsbD k.val) := rfl

@[simp] theorem expanderLines_x (p : Params) : expanderLines p .x = ⟨.X, .X, .X, .X, .X, .X, .X, .X⟩ := rfl

/-- The lines of a latch event on I2C are among the expander's. -/
theorem linesOf_i2c (p : Params) (ps : Pins) (o : XVal Byte) :
    linesOf p .i2c ps o =
      ⟨(expanderLines p o).rs, (expanderLines p o).e,
        [(expanderLines p o).db7, (expanderLines p o).db6, (expanderLines p o).db5, (expanderLines p o).db4]⟩ := rfl

/-! ## Action lists -/

@[simp] theorem expandMicros_nil (p : Params) (t : Transport) (a : Addr7) : expandMicros p t a [] = [] := rfl

@[simp] theorem expandMicros_cons (p : Params) (t : Transport) (a : Addr7) (m : Micro) (ms : List Micro) :
    expandMicros p t a (m :: ms) = microActions p t a m ++ expandMicros p t a ms := rfl

theorem totalWait_append (p : Params) (as bs : List Action) :
    totalWait p (as ++ bs) = addBound (totalWait p as) (totalWait p bs) := by
  induction as with
  | nil => cases h : totalWait p bs <;> simp [totalWait, addBound, h]
  | cons a as ih =>
    cases a
    case wait t =>
      simp only [List.cons_append, totalWait, ih]
      cases waitBound p t <;> cases totalWait p as <;> cases totalWait p bs <;> simp [addBound, Nat.add_assoc]
    all_goals simp only [List.cons_append, totalWait, ih]

/-- Every action of a bus word is a `Drive` of an owned pin, an `I2CTx` to the address, or a wait. -/
theorem busWrite_owned (p : Params) (t : Transport) (a : Addr7) (w : BusWord) :
    ∀ x ∈ busWrite p t a w, ownedAction t (if t = .i2c then .val a else .x) x = true := by
  cases t
  · cases hd : isData w <;> simp [busWrite, p8Write, pulse, dropRs, hd, ownedAction, ownedPins]
  · cases hd : isData w <;> simp [busWrite, p4Write, nib4, pulse, dropRs, hd, ownedAction, ownedPins]
  · cases hd : isData w <;> cases hn : p.nibbleSeq <;> cases hr : p.rsTrailer <;>
      simp [busWrite, i2cWrite, i2cNib, hd, hn, hr, ownedAction]

end Sys2Proof.Machine
end

