-- ==== Sys2Proof/Tests/Slice0.lean ====
section
/-! SUPPORT. Tests/Slice0.lean: the model's own tests. Expected values are written out from the spec's tables (30_encoding.md) and
its vectors (95_test_vectors.md), named in each comment; and for every statement with hypotheses a witness that meets them. -/

namespace Sys2Proof.Tests

open Machine

/-! ## Helpers -/

/-- An instance with no request running (10_state.md R41, after a successful construction). -/
def ready (t : Transport) : State :=
  { State.reset with life := .ready, tsel := .val t, emr := .val 0b10#2, dmr := .val 0b111#3, resp := .ok }

/-- An instance at the I2C address 0x27. -/
def readyI2c : State := { ready .i2c with i2cAddr := .val 0x27#7 }

/-- An instance running the given actions. -/
def running (t : Transport) (as : List Action) : State := { ready t with busy := true, resp := .none, acts := as }

/-- A block in its init sequence. -/
def inInit (t : Transport) (as : List Action) : State := { running t as with life := .init }

def nextOf (o : Host.Outcome State Fault Refusal) : Option State :=
  match o with
  | .next t => some t
  | .fault _ => none
  | .refused _ => none

def refusalOf (o : Host.Outcome State Fault Refusal) : Option Refusal :=
  match o with
  | .next _ => none
  | .fault _ => none
  | .refused r => some r

def faultOf (o : Host.Outcome State Fault Refusal) : Option Fault :=
  match o with
  | .next _ => none
  | .fault f => some f
  | .refused _ => none

/-- The action list an instruction loads. -/
def actsOf (o : Host.Outcome State Fault Refusal) : Option (List Action) := (nextOf o).map State.acts

/-! ## Decoding: words written out bit by bit from 30_encoding.md R76 -/

theorem test_decode_clear : decodeRequest 0b0000000100000000#16 = .ok .clear := by decide

theorem test_decode_reset : decodeRequest 0b0000001000000000#16 = .ok .reset := by decide

theorem test_decode_set_display_mode : decodeRequest 0b0000001100000100#16 = .ok (.setDisplayMode .on .off .off) := by decide

theorem test_decode_set_display : decodeRequest 0b0000010000000000#16 = .ok (.setDisplay .off) := by decide

theorem test_decode_set_cursor_visibility : decodeRequest 0b0000010100000001#16 = .ok (.setCursorVisibility .on) := by decide

theorem test_decode_set_cursor_blink : decodeRequest 0b0000011000000000#16 = .ok (.setCursorBlink .off) := by decide

theorem test_decode_set_autoscroll : decodeRequest 0b0000011100000001#16 = .ok (.setAutoscroll .on) := by decide

theorem test_decode_set_cursor_mode : decodeRequest 0b0000100000000000#16 = .ok (.setCursorMode .decrement) := by decide

theorem test_decode_set_cursor_pos : decodeRequest 0b0000100111111111#16 = .ok (.setCursorPos 0xFF#8) := by decide

theorem test_decode_shift_cursor : decodeRequest 0b0000101000000001#16 = .ok (.shiftCursor .right) := by decide

theorem test_decode_shift_display : decodeRequest 0b0000101100000000#16 = .ok (.shiftDisplay .left) := by decide

theorem test_decode_write_byte : decodeRequest 0b0000110001000001#16 = .ok (.writeByte 0x41#8) := by decide

theorem test_decode_new_8bit : decodeRequest 0b0001000000000000#16 = .ok .new8bit := by decide

theorem test_decode_new_4bit : decodeRequest 0b0001000100000000#16 = .ok .new4bit := by decide

theorem test_decode_new_i2c : decodeRequest 0b0001001000100111#16 = .ok (.newI2c 0x27#7) := by decide

/-! Lines of the pseudo-instructions (R84). -/

theorem test_decode_write_char : decodeHost (.writeChar 0x20AC#21) = .ok (.writeChar 0x20AC#21) := by decide

theorem test_decode_write_bytes : decodeHost (.writeBytes [0x48#8, 0x69#8]) = .ok (.writeBytes [0x48#8, 0x69#8]) := by decide

theorem test_decode_write_str : decodeHost (.writeStr [0x48#21, 0x69#21]) = .ok (.writeStr [0x48#21, 0x69#21]) := by decide

/-! Bus words, from the formats of R72 and R73. -/

theorem test_decode_bus_clear : decodeBus 0b000000001#9 = .ok .busClear := by decide

theorem test_decode_bus_home : decodeBus 0b000000010#9 = .ok .busHome := by decide

theorem test_decode_bus_entry : decodeBus 0b000000101#9 = .ok (.busEntry .decrement .on) := by decide

theorem test_decode_bus_dispctl : decodeBus 0b000001110#9 = .ok (.busDispctl .on .on .off) := by decide

theorem test_decode_bus_shift : decodeBus 0b000010100#9 = .ok (.busShift .cursor .right) := by decide

theorem test_decode_bus_setddram : decodeBus 0b011000000#9 = .ok (.busSetddram 0x40#7) := by decide

theorem test_decode_bus_data : decodeBus 0b101000001#9 = .ok (.busData 0x41#8) := by decide

/-! Init literals, R81. -/

theorem test_decode_init_33 : decodeInit 0b000110011#9 = .ok .init33 := by decide

theorem test_decode_init_32 : decodeInit 0b000110010#9 = .ok .init32 := by decide

theorem test_decode_init_28 : decodeInit 0b000101000#9 = .ok .init28 := by decide

theorem test_decode_init_30 : decodeInit 0b000110000#9 = .ok .init30 := by decide

theorem test_decode_init_38 : decodeInit 0b000111000#9 = .ok .init38 := by decide

theorem test_decode_init_0E : decodeInit 0b000001110#9 = .ok .init0E := by decide

theorem test_decode_init_01 : decodeInit 0b000000001#9 = .ok .init01 := by decide

theorem test_decode_init_07 : decodeInit 0b000000111#9 = .ok .init07 := by decide

theorem test_decode_init_80 : decodeInit 0b010000000#9 = .ok .init80 := by decide

/-- Reserved request words, V-D-RF-1 to V-D-RF-6 and V-D-RF-10. -/
theorem test_decode_reserved_op :
    decodeRequest 0x0D00#16 = .error (.reservedOp 0x0D#8) ∧ decodeRequest 0x0000#16 = .error (.reservedOp 0x00#8) ∧
      decodeRequest 0x1300#16 = .error (.reservedOp 0x13#8) := by decide

theorem test_decode_reserved_arg :
    decodeRequest 0x0308#16 = .error (.reservedArg 0x03#8 0x08#8) ∧ decodeRequest 0x0402#16 = .error (.reservedArg 0x04#8 0x02#8) ∧
      decodeRequest 0x0A02#16 = .error (.reservedArg 0x0A#8 0x02#8) ∧
      decodeRequest 0x0101#16 = .error (.reservedArg 0x01#8 0x01#8) ∧
      decodeRequest 0x12A7#16 = .error (.reservedArg 0x12#8 0xA7#8) := by decide

/-- Bus words the block never composes, R79: 0x003, 0x011, 0x040. -/
theorem test_decode_no_bus_format :
    decodeBus 0x003#9 = .error (.noBusFormat 0x003#9) ∧ decodeBus 0x011#9 = .error (.noBusFormat 0x011#9) ∧
      decodeBus 0x040#9 = .error (.noBusFormat 0x040#9) ∧ decodeBus 0x000#9 = .error (.noBusFormat 0x000#9) := by decide

/-- The table's numbering (log 14). -/
theorem test_table_word :
    decodeTableWord 16 0x0C41 = some (.writeByte 0x41#8) ∧ decodeTableWord 16 0x0033 = some .init33 ∧
      decodeTableWord 16 0x0141 = some (.busData 0x41#8) ∧ decodeTableWord 16 0x0D00 = none := by decide

/-- The spelling of R83. -/
theorem test_text_set_display_mode :
    (Instr.setDisplayMode .on .off .off).text = some "set_display_mode On, Off, Off" := by decide

theorem test_text_new_i2c : (Instr.newI2c 0x27#7).text = some "new_i2c 0x27" := by decide

/-! ## Well-formedness: an ill-formed term for each check -/

/-- Past 0x10FFFF (42_controller_ops.md R164). -/
theorem test_wf_write_char_refuses_past_the_last : (Instr.writeChar 0x110000#21).wf = false := by decide

/-- A surrogate is no scalar value (log 9). -/
theorem test_wf_write_char_refuses_a_surrogate : (Instr.writeChar 0xD800#21).wf = false := by decide

theorem test_wf_write_str_refuses_an_ill_formed_character : (Instr.writeStr [0x48#21, 0xDFFF#21]).wf = false := by decide

theorem test_wf_bounds_accepted :
    (Instr.writeChar 0xD7FF#21).wf = true ∧ (Instr.writeChar 0xE000#21).wf = true ∧ (Instr.writeChar 0x10FFFF#21).wf = true := by
  decide

/-- An ill-formed line is refused by the decoder too. -/
theorem test_decode_refuses_ill_formed :
    decodeHost (.writeChar 0xD800#21) = .error .notScalar ∧ decodeHost (.writeStr [0x110000#21]) = .error .notScalar := by decide

/-- A map that is no bijection (00_scope.md R7). -/
theorem test_wf_map : ExpMap.default.wf = true ∧ ({ ExpMap.default with rw := 0 } : ExpMap).wf = false := by decide

/-! ## Encoders -/

/-- V-L1-1. -/
theorem test_enc_entry :
    encEntry (emrOf .decrement .off) = 0x04#8 ∧ encEntry (emrOf .decrement .on) = 0x05#8 ∧
      encEntry (emrOf .increment .off) = 0x06#8 ∧ encEntry (emrOf .increment .on) = 0x07#8 := by decide

/-- V-L1-2. -/
theorem test_enc_dispctl :
    encDispctl (dmrOf .off .off .off) = 0x08#8 ∧ encDispctl (dmrOf .off .off .on) = 0x09#8 ∧
      encDispctl (dmrOf .off .on .off) = 0x0A#8 ∧ encDispctl (dmrOf .on .off .off) = 0x0C#8 ∧
      encDispctl (dmrOf .on .on .on) = 0x0F#8 := by decide

/-- V-ENC-1. -/
theorem test_enc_setddram :
    encSetddram 0x00#8 = 0x80#8 ∧ encSetddram 0x27#8 = 0xA7#8 ∧ encSetddram 0x7F#8 = 0xFF#8 ∧ encSetddram 0x80#8 = 0x80#8 ∧
      encSetddram 0x85#8 = 0x85#8 ∧ encSetddram 0xFF#8 = 0xFF#8 := by decide

/-- V-L1-4. -/
theorem test_enc_shift :
    encShift .cursor .left = 0x10#8 ∧ encShift .cursor .right = 0x14#8 ∧ encShift .display .left = 0x18#8 ∧
      encShift .display .right = 0x1C#8 := by decide

/-- V-D-WC-2, V-D-WC-3, V-D-WC-4. -/
theorem test_low_byte : lowByte 0xE9#21 = 0xE9#8 ∧ lowByte 0x20AC#21 = 0xAC#8 ∧ lowByte 0x100#21 = 0x00#8 := by decide

/-- V-D-WS-2, V-D-WS-3; and U+1F600 by the encoding of four bytes (log 9). -/
theorem test_utf8 :
    utf8 [0xE9#21] = [0xC3#8, 0xA9#8] ∧ utf8 [0x20AC#21] = [0xE2#8, 0x82#8, 0xAC#8] ∧
      utf8 [0x1F600#21] = [0xF0#8, 0x9F#8, 0x98#8, 0x80#8] := by decide

/-! ## Transports -/

/-- V-L1-6. -/
theorem test_p8_write :
    p8Write 0xA5#8 true =
      [.drive .d0 .H, .drive .d1 .L, .drive .d2 .H, .drive .d3 .L, .drive .d4 .L, .drive .d5 .H, .drive .d6 .L, .drive .d7 .H,
        .drive .rs .H, .drive .en .H, .wait .enPw, .drive .en .L, .wait .post, .drive .rs .L] := by decide

/-- V-L1-5. -/
theorem test_p4_write :
    p4Write 0xA5#8 true =
      [.drive .rs .H, .drive .n0 .L, .drive .n1 .H, .drive .n2 .L, .drive .n3 .H, .drive .en .H, .wait .enPw, .drive .en .L,
        .wait .post, .drive .n0 .H, .drive .n1 .L, .drive .n2 .H, .drive .n3 .L, .drive .en .H, .wait .enPw, .drive .en .L,
        .wait .post, .drive .rs .L] := by decide

/-- V-T-I2C-1. -/
theorem test_i2c_write :
    i2cWrite .default 0x27#7 0xA5#8 true =
      [.i2cTx 0x27 0xA9, .i2cTx 0x27 0xAD, .wait .enPw, .i2cTx 0x27 0xA9, .wait .post,
        .i2cTx 0x27 0x59, .i2cTx 0x27 0x5D, .wait .enPw, .i2cTx 0x27 0x59, .wait .post] := by decide

/-- V-T-I2C-3 and V-T-I2C-4. -/
theorem test_i2c_two_byte_and_trailer :
    i2cWrite { Params.default with nibbleSeq := .twoByte } 0x27#7 0xA5#8 true =
        [.i2cTx 0x27 0xAD, .wait .enPw, .i2cTx 0x27 0xA9, .wait .post,
          .i2cTx 0x27 0x5D, .wait .enPw, .i2cTx 0x27 0x59, .wait .post] ∧
      (i2cWrite { Params.default with rsTrailer := true } 0x27#7 0xA5#8 true).getLast? = some (.i2cTx 0x27 0x58) ∧
      (i2cWrite { Params.default with rsTrailer := true } 0x27#7 0xA5#8 true).length = 11 := by decide

/-- V-T-I2C-5: no backlight. -/
theorem test_i2c_backlight_off :
    (i2cWrite { Params.default with bl := false } 0x27#7 0x80#8 false).filter fallible =
      [.i2cTx 0x27 0x80, .i2cTx 0x27 0x84, .i2cTx 0x27 0x80, .i2cTx 0x27 0x00, .i2cTx 0x27 0x04, .i2cTx 0x27 0x00] := by decide

/-- The latch events of V-L1-5 and V-L1-6, from pins that were never driven. -/
theorem test_latches_parallel :
    latchesFrom .default .p4 .allX .x ((p4Write 0xA5#8 true).map okEvent) =
        [⟨.H, [.H, .L, .H, .L], true⟩, ⟨.H, [.L, .H, .L, .H], true⟩] ∧
      latchesFrom .default .p8 .allX .x ((p8Write 0xA5#8 true).map okEvent) =
        [⟨.H, [.H, .L, .H, .L, .L, .H, .L, .H], true⟩] := by decide

/-- The latch events of V-T-I2C-1, E low before. -/
theorem test_latches_i2c :
    latchesFrom .default .i2c .allX (.val 0x08#8) ((i2cWrite .default 0x27#7 0xA5#8 true).map okEvent) =
      [⟨.H, [.H, .L, .H, .L], true⟩, ⟨.H, [.L, .H, .L, .H], true⟩] := by decide

/-- 41_transport.md R126 with the default map: the first payload of V-I-3, 0x38, drives R/W low and the backlight high; and
70_reset_and_hazards.md R253: an expander with every output high holds R/W and E high. -/
theorem test_expander_lines :
    expanderLines .default (.val 0x38#8) = ⟨.L, .L, .L, .H, .L, .L, .H, .H⟩ ∧
      (expanderLines .default (.val 0xFF#8)).rw = .H ∧ (expanderLines .default (.val 0xFF#8)).e = .H := by decide

/-- Program 5 after its init: (1,4) of the request that failed, then (1,4) and (1,2); the LCD pairs the first two, as data 0x44, and
holds the third. -/
theorem test_pairing_out_of_phase :
    pairNibbles [⟨.H, [.L, .H, .L, .L], true⟩, ⟨.H, [.L, .H, .L, .L], true⟩, ⟨.H, [.L, .L, .H, .L], true⟩] =
        [(⟨.H, [.L, .H, .L, .L], true⟩, ⟨.H, [.L, .H, .L, .L], true⟩)] ∧
      halfByteHeld [⟨.H, [.L, .H, .L, .L], true⟩, ⟨.H, [.L, .H, .L, .L], true⟩, ⟨.H, [.L, .L, .H, .L], true⟩] = true := by
  decide

/-- 70_reset_and_hazards.md R253: the first payload after an expander that powers up with every output high drops E, and what it
latches then is any value on every line that changes with E (log 10). -/
theorem test_latch_at_expander_power_on :
    latchesFrom .default .i2c .allX (.val 0xFF#8) [okEvent (.i2cTx 0x27 0x38)] = [⟨.X, [.X, .X, .H, .H], true⟩] ∧
      latchesFrom .default .i2c .allX .x [okEvent (.i2cTx 0x27 0x38)] = [⟨.X, [.X, .X, .X, .X], false⟩] := by decide

/-! ## Instructions: the expansions of 95_test_vectors.md's table -/

/-- V-D-CL-1, V-T-DSP-1. -/
theorem test_clear_on_p8 : actsOf (exec .clear (ready .p8)) = some (p8Write 0x01#8 false ++ [.wait .clear]) := by decide

theorem test_clear_on_p4 : actsOf (exec .clear (ready .p4)) = some (p4Write 0x01#8 false ++ [.wait .clear]) := by decide

/-- V-D-HM-1. -/
theorem test_reset : actsOf (exec .reset (ready .p8)) = some (p8Write 0x02#8 false ++ [.wait .home]) := by decide

/-- V-D-DM-1. -/
theorem test_set_display_mode :
    actsOf (exec (.setDisplayMode .on .off .off) (ready .p8)) =
      some (.setDmr 0b100#3 :: p8Write 0x0C#8 false ++ [.wait .cmd]) := by decide

/-- V-D-DM-4. -/
theorem test_set_display :
    actsOf (exec (.setDisplay .off) (ready .p8)) = some (.setDmr 0b011#3 :: p8Write 0x0B#8 false ++ [.wait .cmd]) := by decide

/-- V-D-DM-5. -/
theorem test_set_cursor_visibility :
    actsOf (exec (.setCursorVisibility .off) (ready .p8)) =
      some (.setDmr 0b101#3 :: p8Write 0x0D#8 false ++ [.wait .cmd]) := by decide

/-- V-D-DM-6. -/
theorem test_set_cursor_blink :
    actsOf (exec (.setCursorBlink .off) (ready .p8)) =
      some (.setDmr 0b110#3 :: p8Write 0x0E#8 false ++ [.wait .cmd]) := by decide

/-- V-D-EM-1. -/
theorem test_set_autoscroll :
    actsOf (exec (.setAutoscroll .on) (ready .p8)) = some (.setEmr 0b11#2 :: p8Write 0x07#8 false ++ [.wait .cmd]) := by decide

/-- V-D-EM-3 and V-D-EM-4. -/
theorem test_set_cursor_mode :
    actsOf (exec (.setCursorMode .decrement) (ready .p8)) =
        some (.setEmr 0b00#2 :: p8Write 0x04#8 false ++ [.wait .cmd]) ∧
      actsOf (exec (.setCursorMode .decrement) { ready .p8 with emr := .val 0b11#2 }) =
        some (.setEmr 0b01#2 :: p8Write 0x05#8 false ++ [.wait .cmd]) := by decide

/-- V-D-CP-3. -/
theorem test_set_cursor_pos :
    actsOf (exec (.setCursorPos 0x85#8) (ready .p8)) = some (p8Write 0x85#8 false ++ [.wait .cmd]) := by decide

/-- V-D-SH-1. -/
theorem test_shift_cursor :
    actsOf (exec (.shiftCursor .left) (ready .p8)) = some (p8Write 0x10#8 false ++ [.wait .cmd]) := by decide

/-- V-D-SH-4. -/
theorem test_shift_display :
    actsOf (exec (.shiftDisplay .right) (ready .p8)) = some (p8Write 0x1C#8 false ++ [.wait .cmd]) := by decide

/-- V-D-WB-2: data 0x01 is no clear. -/
theorem test_write_byte :
    actsOf (exec (.writeByte 0x01#8) (ready .p4)) = some (p4Write 0x01#8 true ++ [.wait .cmd]) := by decide

/-- V-D-WC-3. -/
theorem test_write_char :
    actsOf (exec (.writeChar 0x20AC#21) (ready .p8)) = some (p8Write 0xAC#8 true ++ [.wait .cmd]) := by decide

/-- V-D-WS-6: the first byte is issued and the second one owed. -/
theorem test_write_bytes :
    (nextOf (exec (.writeBytes [0x48#8, 0x69#8]) (ready .p8))).map (fun t => (t.acts, t.pending)) =
      some (p8Write 0x48#8 true ++ [.wait .cmd], [0x69#8]) := by decide

/-- V-D-WS-5. -/
theorem test_write_bytes_of_none :
    (nextOf (exec (.writeBytes []) (ready .p8))).map (fun t => (t.acts, t.busy, t.trace, t.results)) =
      some ([], false, [], [.ok]) := by decide

/-- V-D-WS-2. -/
theorem test_write_str :
    (nextOf (exec (.writeStr [0xE9#21]) (ready .p8))).map (fun t => (t.acts, t.pending)) =
      some (p8Write 0xC3#8 true ++ [.wait .cmd], [0xA9#8]) := by decide

/-- V-I-2: the bus words and waits of the 8-bit path. -/
theorem test_new_8bit :
    actsOf (exec .new8bit State.reset) = some (List.flatten
      [[.wait .powerOn], p8Write 0x30#8 false, [.wait .initLong], p8Write 0x38#8 false, [.wait .initShort],
        p8Write 0x0E#8 false, [.wait .initShort], p8Write 0x01#8 false, [.wait .initShort],
        p8Write 0x07#8 false, [.wait .initShort], p8Write 0x06#8 false, [.wait .initShort]]) := by decide

/-- V-L1-7 and V-I-2: the bus words of the two init paths. -/
theorem test_init_words :
    wordsOf (initSeq .p4 0b10#2) = [0x033#9, 0x032#9, 0x028#9, 0x00E#9, 0x001#9, 0x006#9, 0x080#9] ∧
      wordsOf (initSeq .p8 0b10#2) = [0x030#9, 0x038#9, 0x00E#9, 0x001#9, 0x007#9, 0x006#9] := by decide

/-- V-I-3: registers after accepting `new_i2c 0x27`, and the first payload. -/
theorem test_new_i2c :
    (nextOf (exec (.newI2c 0x27#7) State.reset)).map (fun t => (t.tsel, t.i2cAddr, t.emr, t.dmr, t.life)) =
        some (.val .i2c, .val 0x27#7, .val 0b10#2, .val 0b111#3, .init) ∧
      (actsOf (exec (.newI2c 0x27#7) State.reset)).map (fun as => as.take 2) =
        some [.wait .powerOn, .i2cTx 0x27 0x38] := by decide

/-- `new_4bit` leaves `I2C_ADDR` with no value (10_state.md R41). -/
theorem test_new_4bit :
    (nextOf (exec .new4bit State.reset)).map (fun t => (t.tsel, t.i2cAddr, t.acts.head?, t.busy)) =
      some (.val .p4, .x, some (.wait .powerOn), true) := by decide

/-! Bus words and init literals within a running request (log 8); the words are those of 30_encoding.md R72, R73, R81. -/

theorem test_bus_clear : actsOf (exec .busClear (running .p8 [])) = some (p8Write 0x01#8 false) := by decide

theorem test_bus_home : actsOf (exec .busHome (running .p8 [])) = some (p8Write 0x02#8 false) := by decide

theorem test_bus_entry : actsOf (exec (.busEntry .increment .off) (running .p8 [])) = some (p8Write 0x06#8 false) := by decide

theorem test_bus_dispctl :
    actsOf (exec (.busDispctl .off .on .on) (running .p8 [])) = some (p8Write 0x0B#8 false) := by decide

theorem test_bus_shift : actsOf (exec (.busShift .display .left) (running .p8 [])) = some (p8Write 0x18#8 false) := by decide

theorem test_bus_setddram : actsOf (exec (.busSetddram 0x7F#7) (running .p8 [])) = some (p8Write 0xFF#8 false) := by decide

theorem test_bus_data :
    actsOf (exec (.busData 0x00#8) (running .p8 [.wait .cmd])) = some (.wait .cmd :: p8Write 0x00#8 true) := by decide

theorem test_init_literals_on_the_4bit_path :
    actsOf (exec .init33 (inInit .p4 [])) = some (p4Write 0x33#8 false) ∧
      actsOf (exec .init32 (inInit .p4 [])) = some (p4Write 0x32#8 false) ∧
      actsOf (exec .init28 (inInit .p4 [])) = some (p4Write 0x28#8 false) ∧
      actsOf (exec .init80 (inInit .p4 [])) = some (p4Write 0x80#8 false) ∧
      refusalOf (exec .init33 (inInit .p8 [])) = some .notInitPath := by decide

theorem test_init_literals_on_the_8bit_path :
    actsOf (exec .init30 (inInit .p8 [])) = some (p8Write 0x30#8 false) ∧
      actsOf (exec .init38 (inInit .p8 [])) = some (p8Write 0x38#8 false) ∧
      actsOf (exec .init07 (inInit .p8 [])) = some (p8Write 0x07#8 false) ∧
      refusalOf (exec .init07 (inInit .p4 [])) = some .notInitPath := by decide

theorem test_init_literals_on_both_paths :
    actsOf (exec .init0E (inInit .p8 [])) = some (p8Write 0x0E#8 false) ∧
      actsOf (exec .init01 (inInit .p4 [])) = some (p4Write 0x01#8 false) := by decide

/-! ## Refusals -/

/-- V-D-RF-7, V-D-RF-8, V-D-RF-9. -/
theorem test_refusals :
    refusalOf (exec .clear State.reset) = some .noInstance ∧
      refusalOf (exec .new4bit { ready .p4 with life := .absent }) = some .alreadyConstructed ∧
      refusalOf (exec .new8bit (ready .p8)) = some .alreadyConstructed ∧
      refusalOf (exec .clear (running .p8 [])) = some .requestInProgress ∧
      refusalOf (exec .busClear (ready .p8)) = some .noRequestRunning := by decide

/-! ## One step -/

/-- V-E-1: the first action of `clear` fails on P4. -/
theorem test_step_error :
    (nextOf (step { running .p4 (p4Write 0x01#8 false ++ [.wait .clear]) with env := [.err true] })).map
        (fun t => (t.resp, t.life, t.busy, t.pins.rs, t.pins.en)) =
      some (.err, .ready, false, .L, .X) := by decide

/-- V-E-4: the first drive of the 8-bit init fails, the pin keeps its old level. -/
theorem test_step_error_in_init :
    (nextOf (step { inInit .p8 (p8Write 0x30#8 false) with env := [.err false] })).map
        (fun t => (t.resp, t.life, t.pins.d0)) =
      some (.err, .absent, .X) := by decide

/-- V-E-6: an error in the second byte ends the sequence. -/
theorem test_step_error_in_a_byte_sequence :
    (nextOf (step { running .p8 (p8Write 0x69#8 true ++ [.wait .cmd]) with env := [.err false], pending := [0x21#8] })).map
        (fun t => (t.pending, t.results, t.busy)) =
      some ([], [.err], false) := by decide

/-- V-E-7: a primitive that never returns. -/
theorem test_step_hang :
    (nextOf (step { running .p8 (p8Write 0x01#8 false) with env := [.hang] })).map (fun t => (t.busy, t.resp, t.hung)) =
        some (true, .none, true) ∧
      faultOf (step { running .p8 [] with hung := true }) = some .hung := by decide

/-- Program 4: the expander at 0x27 does not acknowledge 0x3F. -/
theorem test_step_wrong_address :
    (nextOf (step { inInit .i2c [.i2cTx 0x3F 0x38] with
        params := { Params.default with expAddr := .val 0x27#7 }, env := [.ok] })).map
        (fun t => (t.life, t.resp, t.out)) =
      some (.absent, .err, .x) := by decide

/-- 43_init_sequencer.md R196: the end of the init list. -/
theorem test_step_end_of_init :
    (nextOf (step { inInit .p8 [] with acts := [] })).map (fun t => (t.life, t.resp, t.busy)) =
      some (.ready, .ok, false) := by decide

/-- An unlisted OP in the host's program is refused (V-D-RF-1). -/
theorem test_step_reserved :
    refusalOf (step { ready .p8 with program := [.request 0x0D00#16] }) =
      some (.undecodable (.reservedOp 0x0D#8)) := by decide

/-- An instruction placed right after reset runs at the next step. -/
theorem test_step_placed :
    (nextOf (step (State.reset.withFetchWord 16 0x0C41))).map State.acts = some (p8Write 0x41#8 true ++ [.wait .cmd]) ∧
      (nextOf (step (State.reset.withFetchWord 16 0x1227))).map State.i2cAddr = some (.val 0x27#7) ∧
      (nextOf (step (State.reset.withFetchWord 16 0x0033))).map State.acts = some (p4Write 0x33#8 false) := by decide

/-! ## Witnesses: states and operands that meet the hypotheses of the statements -/

/-- A state with a scripted environment. -/
def withEnv (s : State) (e : List Answer) : State := { s with env := e }

/-- A state with a host program. -/
def withProgram (s : State) (ls : List HostLine) : State := { s with program := ls }

/-- A block at the address `a` of an expander strapped to `e`. -/
def withExpander (s : State) (e : Addr7) : State := { s with params := { Params.default with expAddr := .val e } }

/-- FixedCommandsAccepted, PositionAndShiftsAccepted, DataWritesAccepted, DisplayModeSettersAccepted, EntryModeSettersAccepted,
DerivedEquivalences (a character below 0x100 among its operands), on every transport. -/
theorem witness_ready (t : Transport) :
    (ready t).life = .ready ∧ (ready t).busy = false ∧ (ready t).dmr = .val 0b111#3 ∧ (ready t).emr = .val 0b10#2 ∧
      (0xFF#21 : Scalar).toNat < 0x100 := ⟨rfl, rfl, rfl, rfl, by decide⟩

/-- DecodeOfEncode: an instruction with a check at its bounds. -/
theorem witness_DecodeOfEncode : (Instr.writeStr [0xD7FF#21, 0x10FFFF#21]).wf = true := by decide

/-- EncodeOfDecode: a word of each decoder. -/
theorem witness_EncodeOfDecode :
    decodeRequest 0x127F#16 = .ok (.newI2c 0x7F#7) ∧ decodeBus 0x1FF#9 = .ok (.busData 0xFF#8) ∧
      decodeInit 0x080#9 = .ok .init80 := by decide

/-- ReservedRequestsRefused: a word that fits no row, and one that fits. -/
theorem witness_ReservedRequestsRefused :
    (withProgram (ready .p8) [.request 0x0D00#16]).hung = false ∧ (withProgram (ready .p8) [.request 0x0D00#16]).busy = false ∧
      (withProgram (ready .p8) [.request 0x0D00#16]).pending = [] ∧
      (withProgram (ready .p8) [.request 0x0D00#16]).program = [.request 0x0D00#16] ∧
      refusalOf (step (withProgram (ready .p8) [.request 0x0D00#16])) = some (.undecodable (.reservedOp 0x0D#8)) ∧
      0x0307#16 &&& 0xFFF8#16 = 0x0300#16 := by decide

/-- PayloadLines, EveryPulseIsEnded: a bijective map that is not the default. -/
theorem witness_map :
    ({ ExpMap.default with rs := 7, n3 := 0 } : ExpMap).wf = true ∧
      payload { Params.default with expMap := { ExpMap.default with rs := 7, n3 := 0 } } 0xA#4 true false = 0xA9#8 := by decide

/-- ByteSequencesIssued: a character whose first byte is not its low byte. -/
theorem witness_ByteSequencesIssued : utf8 [0xE9#21] = 0xC3#8 :: [0xA9#8] := by decide

/-- ConstructionsAccepted, ConstructionOnlyOnce: the accepted and the refused side. -/
theorem witness_ConstructionOnlyOnce :
    State.reset.life = .unbuilt ∧ State.reset.busy = false ∧ Instr.new8bit.kind = .construction ∧
      refusalOf (exec .new8bit (inInit .p8 [])) = some .alreadyConstructed := by decide

/-- BusWordsJoinTheRequest: both lives. -/
theorem witness_BusWordsJoinTheRequest :
    (running .p4 []).busy = true ∧ (running .p4 []).life = .ready ∧ (inInit .i2c []).busy = true ∧
      (inInit .i2c []).life = .init := by decide

/-- BusWordsJoinTheRequest, InitLiteralsJoinTheInit: where a word is refused. -/
theorem witness_words_refused :
    Instr.busClear.kind = .busWord ∧ (ready .p8).busy = false ∧ (ready .p8).life ≠ .init ∧ Instr.init33.kind = .initLiteral ∧
      refusalOf (exec .init33 (ready .p4)) = some .notInitPath ∧
      refusalOf (exec .init0E { inInit .p8 [] with busy := false }) = some .noRequestRunning ∧
      refusalOf (exec .busHome { running .p8 [] with life := .absent }) = some .noRequestRunning := by decide

/-- InitLiteralsJoinTheInit: each path. -/
theorem witness_InitLiteralsJoinTheInit (t : Transport) :
    (inInit t []).busy = true ∧ (inInit t []).life = .init ∧ (inInit t []).tsel = .val t := ⟨rfl, rfl, rfl⟩

/-- OperationsRefusedOutsideReady: every clause. -/
theorem witness_OperationsRefusedOutsideReady :
    Instr.clear.kind = .operation ∧ refusalOf (exec .clear State.reset) = some .noInstance ∧
      refusalOf (exec .clear { ready .p8 with life := .absent }) = some .noInstance ∧
      refusalOf (exec .clear (inInit .p8 [])) = some .requestInProgress ∧
      refusalOf (exec .clear (running .p8 [])) = some .requestInProgress ∧
      Instr.kind (.writeStr [0xE9#21]) = .pseudo ∧ Instr.writeStr [0xE9#21] ≠ .writeStr [] ∧
      refusalOf (exec (.writeStr [0xE9#21]) State.reset) = some .noInstance ∧
      refusalOf (exec (.writeBytes [0x00#8]) { ready .p8 with life := .absent }) = some .noInstance ∧
      refusalOf (exec (.writeChar 0x41#21) (running .p8 [])) = some .requestInProgress := by decide

/-- StepRunsTheDecodedInstruction: a host line, an owed byte, a bus word. -/
theorem witness_StepRunsTheDecodedInstruction :
    decodeHost (.request 0x0100#16) = .ok .clear ∧
      actsOf (step (withProgram (ready .p8) [.request 0x0100#16])) = some (p8Write 0x01#8 false ++ [.wait .clear]) ∧
      actsOf (step { ready .p8 with pending := [0x21#8] }) = some (p8Write 0x21#8 true ++ [.wait .cmd]) ∧
      actsOf (step { running .p8 [] with busPort := [.bus 0x101#9] }) = some (p8Write 0x01#8 true) := by decide

/-- PlacedWordRunsNext: a host word, a bus word, an init literal. -/
theorem witness_PlacedWordRunsNext :
    decodeTableWord 16 0x1200 = some (.newI2c 0x00#7) ∧ decodeTableWord 9 0x018 = some (.busShift .display .left) ∧
      decodeTableWord 9 0x038 = some .init38 := by decide

/-- InfallibleActionsComplete: each clause. -/
theorem witness_InfallibleActionsComplete :
    Running (running .p8 [.wait .cmd, .setEmr 0#2, .setDmr 0#3]) ∧
      (running .p8 [.wait .cmd]).acts[0]? = some (.wait .cmd) ∧ (running .p8 [.setEmr 0#2]).acts[0]? = some (.setEmr 0#2) ∧
      (running .p8 [.setDmr 0#3]).acts[0]? = some (.setDmr 0#3) := ⟨⟨rfl, rfl, rfl⟩, rfl, rfl, rfl⟩

/-- DriveOutcomes, ErrorEntryEffect, HangNeverAnswers: each answer. -/
theorem witness_DriveOutcomes (ans : Answer) :
    Running (withEnv (running .p8 [.drive .en .H]) [ans]) ∧
      (withEnv (running .p8 [.drive .en .H]) [ans]).acts[0]? = some (.drive .en .H) ∧
      nextAnswer (withEnv (running .p8 [.drive .en .H]) [ans]) = ans ∧
      answerFor (withEnv (running .p8 [.drive .en .H]) [ans]) (.drive .en .H) = ans := ⟨⟨rfl, rfl, rfl⟩, rfl, rfl, rfl⟩

/-- I2cTxOutcomes: the address acknowledged, and the expander's address another one. -/
theorem witness_I2cTxOutcomes (ans : Answer) :
    Running (withEnv (withExpander (running .i2c [.i2cTx 0x27 0x38]) 0x27) [ans]) ∧
      nextAnswer (withEnv (withExpander (running .i2c [.i2cTx 0x27 0x38]) 0x27) [ans]) = ans ∧
      acknowledges (withExpander (running .i2c []) 0x27).params 0x27 = true ∧
      (withExpander (running .i2c []) 0x27).params.expAddr = .val 0x27 ∧ (0x27#7 : Addr7) ≠ 0x3F#7 :=
  ⟨⟨rfl, rfl, rfl⟩, rfl, rfl, rfl, by decide⟩

/-- EndOfListAnswersOk: in READY and in INIT. -/
theorem witness_EndOfListAnswersOk :
    Running (running .p8 []) ∧ (running .p8 []).pc = (running .p8 []).acts.length ∧ Running (inInit .p8 []) ∧
      (inInit .p8 []).pc = (inInit .p8 []).acts.length := ⟨⟨rfl, rfl, rfl⟩, rfl, ⟨rfl, rfl, rfl⟩, rfl⟩

/-- The invariant holds before construction with a program waiting: a state whose step accepts the construction
(StepKeepsTheInvariant, SilentBeforeConstruction). -/
theorem witness_Inv_unbuilt :
    Inv (withProgram State.reset [.request 0x1000#16]) ∧
      (nextOf (step (withProgram State.reset [.request 0x1000#16]))).map (fun t => (t.life, t.acts.head?)) =
        some (.init, some (.wait .powerOn)) :=
  ⟨⟨fun _ => ⟨rfl, rfl, rfl⟩, nofun, nofun, nofun, nofun, fun _ => ⟨rfl, rfl, rfl, rfl, rfl, rfl, rfl, rfl⟩, fun h => absurd rfl h⟩,
    by decide⟩

/-- And while a request runs: a state whose step drives a pin. -/
theorem witness_Inv_running :
    Inv (withEnv (running .p4 [.drive .rs .L]) [.ok]) ∧
      (nextOf (step (withEnv (running .p4 [.drive .rs .L]) [.ok]))).map (fun t => (t.pins.rs, t.pc)) = some (.L, 1) := by
  refine ⟨⟨nofun, fun _ => ⟨rfl, Nat.zero_le _, .inr rfl⟩, nofun, nofun, nofun, nofun, fun _ => ⟨.p4, ?_⟩⟩, by decide⟩
  refine ⟨rfl, ⟨_, rfl⟩, ⟨_, rfl⟩, nofun, fun _ => rfl, fun _ => rfl, ?_, ?_⟩
  · intro p _
    cases p <;> rfl
  · intro a ha
    rw [List.mem_singleton.mp ha]
    decide

/-- LifecycleEdges, SelectionIsFixed, ShadowRegistersWrittenOnlyBySetters, OneResponsePerRequest, OutputsChangeOnlyByTracedActions:
steps of each kind. -/
theorem witness_steps :
    (nextOf (step (withProgram State.reset [.request 0x1100#16]))).map State.life = some .init ∧
      (nextOf (step (inInit .p8 []))).map State.life = some .ready ∧
      (nextOf (step (withEnv (inInit .p8 [.drive .d0 .L]) [.err true]))).map State.life = some .absent ∧
      (nextOf (step (running .p8 [.setDmr 0b010#3]))).map State.dmr = some (.val 0b010#3) ∧
      (nextOf (step (running .p8 []))).map State.responses = some [.ok] := by decide

/-- ActionPointerMoves: each of the three moves. -/
theorem witness_ActionPointerMoves :
    (nextOf (step (running .p8 [.wait .cmd]))).map (fun t => (t.pc, t.busy)) = some (1, true) ∧
      (nextOf (step (running .p8 []))).map (fun t => (t.pc, t.busy)) = some (0, false) ∧
      (nextOf (step (withEnv (running .p8 [.drive .en .H]) [.hang]))).map (fun t => (t.pc, t.hung)) = some (0, true) := by decide

/-- HostWaitsWhileBusy: bytes and lines are waiting. -/
theorem witness_HostWaitsWhileBusy :
    (nextOf (step { running .p8 [.wait .cmd] with pending := [0x21#8], program := [.request 0x0100#16] })).map
        (fun t => (t.pending, t.program)) = some ([0x21#8], [.request 0x0100#16]) := by decide

/-- OutputsAreNeverRead: two states that differ in a pin. -/
theorem witness_OutputsAreNeverRead :
    SameButOutputs (running .p8 [.wait .cmd]) { running .p8 [.wait .cmd] with pins := Pins.allX.set .rs .H } := rfl

/-- OperationRunsToOk, StoreBeforeSend: a setter with an environment that answers Ok throughout. -/
theorem witness_OperationRunsToOk :
    Instr.kind (.setCursorBlink .off) = .operation ∧
      exec (.setCursorBlink .off) (withEnv (ready .p8) (List.replicate 11 .ok)) =
        .next { withEnv (ready .p8) (List.replicate 11 .ok) with
          busy := true, resp := .none, acts := .setDmr 0b110#3 :: p8Write 0x0E#8 false ++ [.wait .cmd] } ∧
      AllOk (withEnv (ready .p8) (List.replicate 11 .ok)) (.setDmr 0b110#3 :: p8Write 0x0E#8 false ++ [.wait .cmd]) ∧
      LastRequest (withEnv (ready .p8) (List.replicate 11 .ok)) := by
  refine ⟨rfl, rfl, ⟨⟨[], by decide⟩, ?_⟩, rfl, rfl⟩
  intro a v h
  simp [p8Write, pulse, dropRs] at h

/-- ConstructionRunsToReady: an expander whose address is not known acknowledges, and a script of 42 Ok answers is what the init of
V-I-3 takes. -/
theorem witness_ConstructionRunsToReady :
    ∃ t, exec (.newI2c 0x27#7) (withEnv State.reset (List.replicate 42 .ok)) = .next t ∧ AllOk t t.acts := by
  refine ⟨_, rfl, ⟨[], ?_⟩, fun _ _ _ => rfl⟩
  have h : fallibleCount (expandMicros .default .i2c 0x27#7 (initSeq .i2c 0b10#2)) = 42 := by
    simp [initSeq, onPath8, initSeq4, initWrite, microActions, busWrite, i2cWrite, i2cNib, Params.default, fallibleCount, fallible,
      List.filter_cons]
  change List.replicate 42 Answer.ok =
    List.replicate (fallibleCount (expandMicros .default .i2c 0x27#7 (initSeq .i2c 0b10#2))) Answer.ok ++ []
  rw [h, List.append_nil]

/-- FirstErrorEndsTheRequest: the second of two drives fails. -/
theorem witness_FirstErrorEndsTheRequest :
    Running (withEnv (running .p4 [.drive .rs .L, .wait .post, .drive .en .H]) [.ok, .err true]) ∧
      1 < fallibleCount [.drive .rs .L, .wait .post, .drive .en .H] ∧
      (withEnv (running .p4 []) [.ok, .err true]).env = List.replicate 1 .ok ++ .err true :: [] :=
  ⟨⟨rfl, rfl, rfl⟩, by decide, rfl⟩

/-- AfterASuccessfulWrite: each transport. -/
theorem witness_AfterASuccessfulWrite :
    AllOk (withEnv (ready .p8) (List.replicate 12 .ok)) (wordActions (ready .p8) (busWord true 0xA5#8)) ∧
      AllOk (withEnv (ready .p4) (List.replicate 14 .ok)) (wordActions (ready .p4) (busWord true 0xA5#8)) ∧
      AllOk (withEnv readyI2c (List.replicate 6 .ok)) (wordActions readyI2c (busWord true 0xA5#8)) := by
  refine ⟨⟨⟨[], by decide⟩, fun _ _ _ => rfl⟩, ⟨⟨[], by decide⟩, fun _ _ _ => rfl⟩, ⟨[], by decide⟩, fun _ _ _ => rfl⟩

/-- ByteSequenceRunsToOk: two bytes over I2C, acknowledged. -/
theorem witness_ByteSequenceRunsToOk :
    readyI2c.life = .ready ∧ readyI2c.pending = [] ∧ readyI2c.i2cAddr = .val 0x27#7 ∧
      acknowledges readyI2c.params 0x27#7 = true ∧
      (withEnv readyI2c (List.replicate 12 .ok)).env =
        List.replicate (fallibleCount ([0x48#8, 0x69#8].flatMap fun b => wordActions readyI2c (busWord true b))) .ok ++ [] :=
  ⟨rfl, rfl, rfl, rfl, by decide⟩

/-- WrongAddressNeverReady: construction at 0x3F of an expander at 0x27. -/
theorem witness_WrongAddressNeverReady :
    (withExpander State.reset 0x27).life = .unbuilt ∧ (withExpander State.reset 0x27).params.expAddr = .val 0x27#7 ∧
      (0x27#7 : Addr7) ≠ 0x3F#7 ∧ (nextOf (exec (.newI2c 0x3F#7) (withExpander State.reset 0x27))).isSome = true := by decide

/-- FirstOperationNeverRaisesEn: the first action of a data write on I2C fails and the expander takes it (V-E-3). -/
theorem witness_FirstOperationNeverRaisesEn :
    Running (withEnv { readyI2c with busy := true, acts := wordActions readyI2c 0x141#9 } [.err true]) ∧
      Params.default.nibbleSeq = .threeByte ∧ Params.default.expMap.wf = true ∧
      (nextOf (step (withEnv { readyI2c with busy := true, acts := wordActions readyI2c 0x141#9 } [.err true]))).map State.out =
        some (.val 0x49#8) := ⟨⟨rfl, rfl, rfl⟩, rfl, by decide, by decide⟩

/-- LatchedTransfers, InitLatches: E low before the write, on the pins and at the expander. -/
theorem witness_LatchedTransfers :
    (Pins.allX.set .en .L).en = .L ∧ enLow .default 0x08#8 = true ∧ enLow .default 0xFF#8 = false ∧
      Params.default.expMap.wf = true ∧ Params.default.nibbleSeq = .threeByte := by decide

/-- HalfAByteAfterAnError: the ends of both ranges (V-E-2 is the upper end on P4). -/
theorem witness_HalfAByteAfterAnError :
    (busWrite .default .p4 0 0x141#9)[9]? = some (.drive .n0 .H) ∧ (busWrite .default .p4 0 0x141#9)[13]? = some (.drive .en .H) ∧
      (busWrite .default .i2c 0x27 0x141#9)[5]? = some (.i2cTx 0x27 0x19) ∧
      (busWrite .default .i2c 0x27 0x141#9)[6]? = some (.i2cTx 0x27 0x1D) := by decide

/-- A block whose settle times are 1 µs and 40 µs, and whose clear waits 1520 µs. -/
def timed (t : Transport) : State :=
  { ready t with params := { Params.default with tEnPw := .val 1, tPost := .val 40, tClear := 1520 } }

/-- MinimumWaits: `clear` on P8, `reset` on P4, a setter on I2C, a data write on P4 and `write_char` on P8, their totals by
70_reset_and_hazards.md R260. -/
theorem witness_MinimumWaits :
    (timed .p8).params.tEnPw = .val 1 ∧ (timed .p8).params.tPost = .val 40 ∧
      (actsOf (exec .clear (timed .p8))).map (totalWait (timed .p8).params) = some (.val 1561) ∧
      (actsOf (exec .reset (timed .p4))).map (totalWait (timed .p4).params) = some (.val 182) ∧
      (actsOf (exec (.setDisplay .off) { timed .i2c with i2cAddr := .val 0x27 })).map (totalWait (timed .i2c).params) =
        some (.val 182) ∧
      (actsOf (exec (.writeByte 0x41#8) (timed .p4))).map (totalWait (timed .p4).params) = some (.val 182) ∧
      (actsOf (exec (.writeChar 0x41#21) (timed .p8))).map (totalWait (timed .p8).params) = some (.val 141) := by decide

/-- StepKeepsWriteMode: a payload still to be sent, OUT not yet written, and the step that writes it. -/
theorem witness_StepKeepsWriteMode :
    WriteModeInv (withEnv (running .i2c [.i2cTx 0x27 0x38]) [.ok]) ∧
      (withEnv (running .i2c [.i2cTx 0x27 0x38]) [.ok]).params.expMap.wf = true ∧
      (nextOf (step (withEnv (running .i2c [.i2cTx 0x27 0x38]) [.ok]))).map State.out = some (.val 0x38#8) := by
  refine ⟨⟨?_, .inl rfl⟩, by decide, by decide⟩
  intro a v h
  cases List.mem_singleton.mp h
  decide

/-- OnlyEmittableWords: an instruction that answers a next state. -/
theorem witness_OnlyEmittableWords :
    (nextOf (exec (.setCursorPos 0xFF#8) (ready .p8))).isSome = true ∧ emittableWord 0x0FF#9 = true ∧
      emittableWord 0x040#9 = false ∧ emittableWord 0x003#9 = false := by decide

end Sys2Proof.Tests
end

/-! ## One step and whole requests (00_scope.md R8 to R11)

What a step does, one lemma per move; what the actions of a request do when every primitive answers Ok; and the settled statements
that rest on them. -/

namespace Sys2Proof.Machine

/-! ### A step that takes a line -/

/-- With no request running and no byte owed, a step runs the next line of the host's program (30_encoding.md R83). -/
theorem step_of_hostLine {s : State} {l : HostLine} {rest : List HostLine} {i : Instr} (hh : s.hung = false)
    (hb : s.busy = false) (hp : s.pending = []) (hl : s.program = l :: rest) (hd : decodeHost l = .ok i) :
    step s = exec i { s with program := rest } := by
  simp [step, nextMove, idleMove, moveOfLine, hh, hb, hp, hl, hd]

/-- With no request running, a byte a pseudo-instruction owes is issued before any line (42_controller_ops.md R165). -/
theorem step_of_owedByte {s : State} {b : Byte} {rest : List Byte} (hh : s.hung = false) (hb : s.busy = false)
    (hp : s.pending = b :: rest) : step s = exec (.writeByte b) { s with pending := rest } := by
  simp [step, nextMove, idleMove, hh, hb, hp]

/-- While a request runs, a bus word waiting at the port is taken first (log 8). -/
theorem step_of_busLine {s : State} {w : BusLine} {rest : List BusLine} {i : Instr} (hh : s.hung = false)
    (hb : s.busy = true) (hw : s.busPort = w :: rest) (hd : decodeBusLine w = .ok i) :
    step s = exec i { s with busPort := rest } := by
  simp [step, nextMove, busyMove, moveOfLine, hh, hb, hw, hd]

/-! ### A step of the running request -/

/-- An action that is answered Ok completes (00_scope.md R10). -/
theorem step_of_answerOk {s : State} {a : Action} (hr : Running s) (ha : s.acts[s.pc]? = some a)
    (hok : answerFor s a = .ok) : step s = .next (completeAction (afterAnswer s a) a) := by
  simp [step_of_running hr, runAction, runOne, ha, hok]

/-- An infallible action draws no answer and completes (00_scope.md R9). -/
theorem step_of_infallible {s : State} {a : Action} (hr : Running s) (ha : s.acts[s.pc]? = some a)
    (hf : fallible a = false) : step s = .next (completeAction s a) := by
  have hok : answerFor s a = .ok := by simp [answerFor, hf]
  simpa [afterAnswer, hf] using step_of_answerOk hr ha hok

/-- At the end of its list the request ends with OK (00_scope.md R10). -/
theorem step_of_endOfList {s : State} (hr : Running s) (hpc : s.pc = s.acts.length) : step s = .next (finish s .ok) := by
  simp [step_of_running hr, runAction, hpc]

/-- A request that succeeds takes INIT to READY and leaves every other `LIFE` (43_init_sequencer.md R196). -/
theorem lifeAtEnd_true (l : Life) : lifeAtEnd l true = if l = .init then .ready else l := by
  cases l <;> rfl

/-! ### What an action shows in the trace -/

/-- The pins after an action's effect, or without it, are those its event tells. -/
theorem pins_eq_pinsAfter (s : State) (a : Action) (o : Answer) :
    (if tookEffect o then applyAction s a else s).pins = pinsAfter s.pins ⟨a, o⟩ := by
  cases h : tookEffect o <;> cases a <;> simp [pinsAfter, h]

/-- `OUT` after an action's effect, or without it, is what its event tells. -/
theorem out_eq_outAfter (s : State) (a : Action) (o : Answer) :
    (if tookEffect o then applyAction s a else s).out = outAfter s.out ⟨a, o⟩ := by
  cases h : tookEffect o <;> cases a <;> simp [outAfter, h]

/-- An action records one event, and the pins and `OUT` after it are those that event tells. -/
theorem runOne_event (s : State) (a : Action) :
    ∃ o, (runOne s a).trace = s.trace ++ [⟨a, o⟩] ∧ (runOne s a).pins = pinsAfter s.pins ⟨a, o⟩ ∧
      (runOne s a).out = outAfter s.out ⟨a, o⟩ := by
  rcases runOne_cases s a with h | ⟨took, -, h⟩ | ⟨-, h⟩ <;> rw [h]
  · exact ⟨.ok, by simp, by simpa [tookEffect] using pins_eq_pinsAfter (afterAnswer s a) a .ok,
      by simpa [tookEffect] using out_eq_outAfter (afterAnswer s a) a .ok⟩
  · exact ⟨.err took, by simp, (errorEntry_pins ..).trans (pins_eq_pinsAfter (drawn s) a (.err took)),
      (errorEntry_out ..).trans (out_eq_outAfter (drawn s) a (.err took))⟩
  · exact ⟨.hang, rfl, pins_eq_pinsAfter (drawn s) a .hang, out_eq_outAfter (drawn s) a .hang⟩

/-- No instruction touches a pin, `OUT` or the trace: it only loads actions. -/
theorem exec_keeps_outputs {i : Instr} {s t : State} (h : exec i s = .next t) :
    t.trace = s.trace ∧ t.pins = s.pins ∧ t.out = s.out := by
  cases hk : i.kind
  case operation =>
    obtain ⟨-, -, _, rfl⟩ := exec_operation hk h
    exact ⟨rfl, rfl, rfl⟩
  case construction =>
    obtain ⟨-, -, _, _, -, -, rfl⟩ := exec_construction hk h
    exact ⟨rfl, rfl, rfl⟩
  case pseudo =>
    obtain rfl | ⟨_, _, -, -, rfl⟩ := exec_pseudo hk h <;> exact ⟨rfl, rfl, rfl⟩
  case busWord =>
    obtain ⟨-, -, _, rfl⟩ := exec_word (.inl hk) h
    exact ⟨rfl, rfl, rfl⟩
  case initLiteral =>
    obtain ⟨-, -, _, rfl⟩ := exec_word (.inr hk) h
    exact ⟨rfl, rfl, rfl⟩

/-! ### Actions that are all answered Ok -/

/-- The state in which the actions of a list, run in order, have all completed with Ok. -/
def completeAll (s : State) : List Action → State
  | [] => s
  | a :: as => completeAll (completeAction (afterAnswer s a) a) as

/-- A field that completing one action keeps is kept by a whole list. -/
theorem completeAll_keeps {α : Type} (f : State → α) (hf : ∀ s a, f (completeAction (afterAnswer s a) a) = f s) (s : State)
    (as : List Action) : f (completeAll s as) = f s := by
  induction as generalizing s with
  | nil => rfl
  | cons a as ih => exact (ih _).trans (hf s a)

@[simp] theorem completeAll_life (s : State) (as : List Action) : (completeAll s as).life = s.life :=
  completeAll_keeps State.life (by simp) s as
@[simp] theorem completeAll_tsel (s : State) (as : List Action) : (completeAll s as).tsel = s.tsel :=
  completeAll_keeps State.tsel (by simp) s as
@[simp] theorem completeAll_i2cAddr (s : State) (as : List Action) : (completeAll s as).i2cAddr = s.i2cAddr :=
  completeAll_keeps State.i2cAddr (by simp) s as
@[simp] theorem completeAll_busy (s : State) (as : List Action) : (completeAll s as).busy = s.busy :=
  completeAll_keeps State.busy (by simp) s as
@[simp] theorem completeAll_acts (s : State) (as : List Action) : (completeAll s as).acts = s.acts :=
  completeAll_keeps State.acts (by simp) s as
@[simp] theorem completeAll_params (s : State) (as : List Action) : (completeAll s as).params = s.params :=
  completeAll_keeps State.params (by simp) s as
@[simp] theorem completeAll_responses (s : State) (as : List Action) : (completeAll s as).responses = s.responses :=
  completeAll_keeps State.responses (by simp) s as
@[simp] theorem completeAll_hung (s : State) (as : List Action) : (completeAll s as).hung = s.hung :=
  completeAll_keeps State.hung (by simp) s as
@[simp] theorem completeAll_program (s : State) (as : List Action) : (completeAll s as).program = s.program :=
  completeAll_keeps State.program (by simp) s as
@[simp] theorem completeAll_pending (s : State) (as : List Action) : (completeAll s as).pending = s.pending :=
  completeAll_keeps State.pending (by simp) s as
@[simp] theorem completeAll_results (s : State) (as : List Action) : (completeAll s as).results = s.results :=
  completeAll_keeps State.results (by simp) s as
@[simp] theorem completeAll_busPort (s : State) (as : List Action) : (completeAll s as).busPort = s.busPort :=
  completeAll_keeps State.busPort (by simp) s as

@[simp] theorem completeAll_pc (s : State) (as : List Action) : (completeAll s as).pc = s.pc + as.length := by
  induction as generalizing s with
  | nil => rfl
  | cons a as ih => simp [completeAll, ih]; omega

@[simp] theorem completeAll_trace (s : State) (as : List Action) :
    (completeAll s as).trace = s.trace ++ as.map okEvent := by
  induction as generalizing s with
  | nil => simp [completeAll]
  | cons a as ih => simp [completeAll, ih, okEvent]

theorem running_completeAll {s : State} (h : Running s) (as : List Action) : Running (completeAll s as) := by
  simpa [Running] using h

theorem fallibleCount_append (as bs : List Action) :
    fallibleCount (as ++ bs) = fallibleCount as + fallibleCount bs := by
  simp [fallibleCount]

/-- The script's answers that a list of actions takes are the fallible ones' (00_scope.md R9). -/
@[simp] theorem completeAll_env (s : State) (as : List Action) :
    (completeAll s as).env = s.env.drop (fallibleCount as) := by
  induction as generalizing s with
  | nil => rfl
  | cons a as ih =>
    cases hf : fallible a <;> simp [completeAll, ih, fallibleCount, afterAnswer, hf]

/-- Where a list will be answered Ok, its first action is. -/
theorem answerFor_of_allOk {s : State} {a : Action} {as : List Action} (h : AllOk s (a :: as)) : answerFor s a = .ok := by
  obtain ⟨⟨rest, henv⟩, hack⟩ := h
  cases hf : fallible a
  · simp [answerFor, hf]
  · have hn : nextAnswer s = .ok := by simp [nextAnswer, henv, fallibleCount, hf, List.replicate_succ]
    have hp : possibleAnswer s.params a .ok = .ok := by
      cases a
      case i2cTx addr v => simp [possibleAnswer, hack addr v List.mem_cons_self]
      all_goals rfl
    simp [answerFor, hn, hp]

/-- Where a list will be answered Ok, so is any part of it once the part before it has completed. -/
theorem AllOk.after {s : State} {as bs : List Action} (h : AllOk s (as ++ bs)) : AllOk (completeAll s as) bs := by
  obtain ⟨⟨rest, henv⟩, hack⟩ := h
  refine ⟨⟨rest, ?_⟩, fun a v hm => ?_⟩
  · rw [completeAll_env, henv, fallibleCount_append, List.replicate_add, List.append_assoc, List.drop_left' (by simp)]
  · simpa using hack a v (List.mem_append_right as hm)

/-- A list of actions at `pc` that are all answered Ok takes one step per action, and each completes (00_scope.md R10). -/
theorem steps_of_allOk {s : State} {as rest : List Action} (hr : Running s) (hd : s.acts.drop s.pc = as ++ rest)
    (h : AllOk s as) : steps as.length s = .next (completeAll s as) := by
  induction as generalizing s with
  | nil => rfl
  | cons a as ih =>
    have ha : s.acts[s.pc]? = some a := by rw [← List.head?_drop, hd]; rfl
    have htail : s.acts.drop (s.pc + 1) = as ++ rest := by rw [← List.tail_drop, hd]; rfl
    rw [List.length_cons, steps, step_of_answerOk hr ha (answerFor_of_allOk h)]
    exact ih (running_completeAll hr [a]) (by simpa using htail) (AllOk.after (as := [a]) h)

/-- A request just started whose primitives are all answered Ok ends with OK, one step after its last action. -/
theorem steps_request_of_allOk {s : State} (hr : Running s) (hpc : s.pc = 0) (h : AllOk s s.acts) :
    steps (s.acts.length + 1) s = .next (finish (completeAll s s.acts) .ok) := by
  have hrun := steps_of_allOk (rest := []) hr (by simp [hpc]) h
  rw [steps_add hrun, steps, step_of_endOfList (running_completeAll hr _) (by simp [hpc])]
  rfl

end Sys2Proof.Machine

namespace Sys2Proof

open Machine

/-- Settles O20: one lemma per place a line is fetched from. -/
theorem stepRunsTheDecodedInstruction : Obligations.StepRunsTheDecodedInstruction :=
  ⟨fun _ _ _ _ hh hb hp hl hd => step_of_hostLine hh hb hp hl hd, fun _ _ _ hh hb hp => step_of_owedByte hh hb hp,
    fun _ _ _ _ hh hb hw hd => step_of_busLine hh hb hw hd⟩

/-- Settles O22: an infallible action completes without drawing an answer. -/
theorem infallibleActionsComplete : Obligations.InfallibleActionsComplete :=
  fun _ hr => ⟨fun _ ha => step_of_infallible hr ha rfl, fun _ ha => step_of_infallible hr ha rfl,
    fun _ ha => step_of_infallible hr ha rfl⟩

/-- Settles O26: the step at the end of the list is `finish` with OK, whose fields are read off. -/
theorem endOfListAnswersOk : Obligations.EndOfListAnswersOk :=
  fun s hr hpc => ⟨finish s .ok, step_of_endOfList hr hpc, by simp [lifeAtEnd_true]⟩

/-- Settles O35: by what a step can do. Only an action of the running request touches pins, `OUT` or the trace. -/
theorem outputsChangeOnlyByTracedActions : Obligations.OutputsChangeOnlyByTracedActions := by
  intro s t h
  obtain ⟨-, ⟨-, _, _, _, -, -, he⟩ | ⟨hb, -, rfl⟩ | ⟨-, _, _, -, he⟩ | ⟨-, -, _, _, _, -, -, he⟩ | ⟨-, -, -, rfl⟩⟩ :=
    step_cases h
  case inr.inl =>
    obtain ⟨-, hrun⟩ | ⟨a, ha, hrun⟩ := runAction_cases s <;> rw [hrun]
    · exact .inl (by simp)
    · obtain ⟨o, ho⟩ := runOne_event s a
      exact .inr ⟨⟨a, o⟩, hb, ha, ho⟩
  case inr.inr.inr.inr => exact .inl ⟨rfl, rfl, rfl⟩
  all_goals
    have hkeep := exec_keeps_outputs he
    exact .inl hkeep

/-- Settles O39: an accepted operation is a request just started, so its whole list completes and its end answers OK. -/
theorem operationRunsToOk : Obligations.OperationRunsToOk := by
  intro i s t hk hh hw h hok
  obtain ⟨hlife, -, ms, rfl⟩ := exec_operation hk h
  have hr : Running (startRequest s (expand s ms)) := ⟨hh, rfl, hw⟩
  exact ⟨_, steps_request_of_allOk hr rfl hok, by simp [hlife, lifeAtEnd_true]⟩

end Sys2Proof

/-! ## What a step does to the block, and the state rules of 10_state.md

The block is every field but the host's side (`program`, `pending`, `results`, `busPort`; log 5, log 8). `BlockStep` says once, move
by move, what a step can do to it; the rules of 10_state.md are read off it. -/

namespace Sys2Proof.Machine

/-! ### The moves of the block -/

/-- Two states that differ at most in the host's side: the lines and bytes still to be issued, and what the host was told. -/
def SameBlock (s u : State) : Prop :=
  ∃ ls bs rs ws, u = { s with program := ls, pending := bs, results := rs, busPort := ws }

section SameBlock

variable {s u : State}

theorem SameBlock.life : SameBlock s u → u.life = s.life := by rintro ⟨_, _, _, _, rfl⟩; rfl
theorem SameBlock.tsel : SameBlock s u → u.tsel = s.tsel := by rintro ⟨_, _, _, _, rfl⟩; rfl
theorem SameBlock.i2cAddr : SameBlock s u → u.i2cAddr = s.i2cAddr := by rintro ⟨_, _, _, _, rfl⟩; rfl
theorem SameBlock.emr : SameBlock s u → u.emr = s.emr := by rintro ⟨_, _, _, _, rfl⟩; rfl
theorem SameBlock.dmr : SameBlock s u → u.dmr = s.dmr := by rintro ⟨_, _, _, _, rfl⟩; rfl
theorem SameBlock.busy : SameBlock s u → u.busy = s.busy := by rintro ⟨_, _, _, _, rfl⟩; rfl
theorem SameBlock.params : SameBlock s u → u.params = s.params := by rintro ⟨_, _, _, _, rfl⟩; rfl
theorem SameBlock.responses : SameBlock s u → u.responses = s.responses := by rintro ⟨_, _, _, _, rfl⟩; rfl

end SameBlock

/-- The moves a step can make on the block (00_scope.md R10; 42_controller_ops.md R150; 43_init_sequencer.md R190; log 8). -/
inductive BlockStep (s : State) : State → Prop
  /-- Only the host's side moves. -/
  | hostOnly {u : State} (hu : SameBlock s u) : BlockStep s u
  /-- An operation is accepted, and its request starts. -/
  | operation {u : State} (ms : List Micro) (hl : s.life = .ready) (hb : s.busy = false) (hu : SameBlock s u) :
      BlockStep s (startRequest u (expand u ms))
  /-- A construction is accepted, and its init sequence starts. -/
  | construction {u : State} (tr : Transport) (addr : XVal Addr7) (hl : s.life = .unbuilt) (hb : s.busy = false)
      (hi2c : tr = .i2c → ∃ a, addr = .val a) (helse : tr ≠ .i2c → addr = .x) (hu : SameBlock s u) :
      BlockStep s (startRequest (constructed tr addr u) (expand (constructed tr addr u) (initSeq tr emrAtConstruction)))
  /-- A bus word joins the running request. -/
  | word {u : State} (w : BusWord) (hb : s.busy = true) (hl : s.life = .init ∨ s.life = .ready) (hu : SameBlock s u) :
      BlockStep s { u with acts := u.acts ++ wordActions u w }
  /-- The action at `pc` completes. -/
  | complete (a : Action) (hb : s.busy = true) (ha : s.acts[s.pc]? = some a) : BlockStep s (completeAction (afterAnswer s a) a)
  /-- The action at `pc` fails, and the request ends with ERR. -/
  | fail (a : Action) (took : Bool) (hb : s.busy = true) (ha : s.acts[s.pc]? = some a) (hf : fallible a = true) :
      BlockStep s (errorEntry (drawn s) a took)
  /-- The action at `pc` never returns. -/
  | hang (a : Action) (hb : s.busy = true) (ha : s.acts[s.pc]? = some a) (hf : fallible a = true) :
      BlockStep s (hang (drawn s) a)
  /-- The list is done, and the request ends with OK. -/
  | done (hb : s.busy = true) (ha : s.acts[s.pc]? = none) : BlockStep s (finish s .ok)

/-- An instruction makes one of the first four moves. -/
theorem blockStep_of_exec {i : Instr} {s u t : State} (hu : SameBlock s u) (h : exec i u = .next t) : BlockStep s t := by
  obtain ⟨ls, bs, rs, ws, rfl⟩ := hu
  cases hk : i.kind
  case operation =>
    obtain ⟨hl, hb, ms, rfl⟩ := exec_operation hk h
    exact .operation ms hl hb ⟨_, _, _, _, rfl⟩
  case construction =>
    obtain ⟨hl, hb, tr, addr, hi2c, helse, rfl⟩ := exec_construction hk h
    exact .construction tr addr hl hb hi2c helse ⟨_, _, _, _, rfl⟩
  case pseudo =>
    obtain rfl | ⟨b, rest, hl, hb, rfl⟩ := exec_pseudo hk h
    · exact .hostOnly ⟨_, _, _, _, rfl⟩
    · exact .operation (dat b) hl hb ⟨_, _, _, _, rfl⟩
  case busWord =>
    obtain ⟨hb, hl, w, rfl⟩ := exec_word (.inl hk) h
    exact .word w hb hl ⟨_, _, _, _, rfl⟩
  case initLiteral =>
    obtain ⟨hb, hl, w, rfl⟩ := exec_word (.inr hk) h
    exact .word w hb hl ⟨_, _, _, _, rfl⟩

/-- The running request makes one of the last four. -/
theorem blockStep_of_running {s : State} (hb : s.busy = true) : BlockStep s (runAction s) := by
  obtain ⟨ha, h⟩ | ⟨a, ha, h⟩ := runAction_cases s <;> rw [h]
  · exact .done hb ha
  · obtain h | ⟨took, hf, h⟩ | ⟨hf, h⟩ := runOne_cases s a <;> rw [h]
    · exact .complete a hb ha
    · exact .fail a took hb ha hf
    · exact .hang a hb ha hf

/-- A step that answers a next state starts in a state that is not stuck, and makes one of the block's moves. -/
theorem blockStep_of_step {s t : State} (h : step s = .next t) : s.hung = false ∧ BlockStep s t := by
  obtain ⟨hh, ⟨-, _, _, _, -, -, he⟩ | ⟨hb, -, rfl⟩ | ⟨-, _, _, -, he⟩ | ⟨-, -, _, _, _, -, -, he⟩ | ⟨-, -, -, rfl⟩⟩ :=
    step_cases h
  case inr.inl => exact ⟨hh, blockStep_of_running hb⟩
  case inr.inr.inr.inr => exact ⟨hh, .hostOnly ⟨_, _, _, _, rfl⟩⟩
  all_goals exact ⟨hh, blockStep_of_exec ⟨_, _, _, _, rfl⟩ he⟩

/-! ### The shadow registers under one action -/

/-- Only a shadow write of EMR changes EMR (10_state.md R30). -/
theorem applyAction_emr_cases (s : State) (a : Action) : (applyAction s a).emr = s.emr ∨ ∃ v, a = .setEmr v := by
  cases a
  case setEmr v => exact .inr ⟨v, rfl⟩
  all_goals exact .inl rfl

/-- Only a shadow write of DMR changes DMR (10_state.md R33). -/
theorem applyAction_dmr_cases (s : State) (a : Action) : (applyAction s a).dmr = s.dmr ∨ ∃ v, a = .setDmr v := by
  cases a
  case setDmr v => exact .inr ⟨v, rfl⟩
  all_goals exact .inl rfl

/-- An action that can fail writes no shadow register (00_scope.md R9). -/
theorem applyAction_shadow_of_fallible (s : State) {a : Action} (hf : fallible a = true) :
    (applyAction s a).emr = s.emr ∧ (applyAction s a).dmr = s.dmr := by
  cases a
  case drive | i2cTx => exact ⟨rfl, rfl⟩
  all_goals cases hf

/-- A failed action leaves both shadow registers, whichever value its target holds. -/
theorem errorEntry_shadow_of_fallible (s : State) {a : Action} (took : Bool) (hf : fallible a = true) :
    (errorEntry s a took).emr = s.emr ∧ (errorEntry s a took).dmr = s.dmr := by
  obtain ⟨hemr, hdmr⟩ := applyAction_shadow_of_fallible s hf
  cases took <;> simp [hemr, hdmr]

/-- `LIFE` when a request ends: INIT moves to READY or ABSENT, any other stays (43_init_sequencer.md R196, R197). -/
theorem lifeAtEnd_cases (l : Life) (ok : Bool) :
    lifeAtEnd l ok = l ∨ (l = .init ∧ lifeAtEnd l ok = if ok then .ready else .absent) := by
  cases l
  case init => exact .inr ⟨rfl, rfl⟩
  all_goals exact .inl rfl

end Sys2Proof.Machine

namespace Sys2Proof

open Machine

/-! ### The invariant: what a built block holds -/

section BuiltInv

variable {s : State} {t : Transport}

theorem BuiltInv.readTsel_eq (h : BuiltInv s t) : readTsel s = t := by simp [readTsel, h.tsel]

/-- I2C_ADDR holds what the transport reads, and nothing off I2C (10_state.md R35). -/
theorem BuiltInv.i2cAddr_eq (h : BuiltInv s t) : s.i2cAddr = if t = .i2c then .val (readAddr s) else .x := by
  split
  case isTrue ht =>
    obtain ⟨a, ha⟩ := h.addrOnI2c ht
    simp [readAddr, ha]
  case isFalse ht => exact h.addrElse ht

/-- A bus word runs only actions the transport owns. -/
theorem BuiltInv.wordActions_owned (h : BuiltInv s t) (w : BusWord) :
    ∀ a ∈ wordActions s w, ownedAction t s.i2cAddr a = true := by
  rw [h.i2cAddr_eq, wordActions, h.readTsel_eq]
  exact busWrite_owned s.params t (readAddr s) w

/-- And so does every expansion: its other items are waits and shadow writes. -/
theorem BuiltInv.expand_owned (h : BuiltInv s t) (ms : List Micro) :
    ∀ a ∈ expand s ms, ownedAction t s.i2cAddr a = true := by
  intro a ha
  obtain ⟨m, -, ham⟩ := List.mem_flatMap.mp ha
  cases m
  case word w => exact h.wordActions_owned w a ham
  all_goals
    rw [List.mem_singleton.mp ham]
    rfl

/-- An owned action keeps what a built block holds: it drives an owned pin, or sends on I2C. -/
theorem BuiltInv.applyAction (h : BuiltInv s t) {a : Action} (ha : ownedAction t s.i2cAddr a = true) :
    BuiltInv (applyAction s a) t := by
  cases a
  case drive p lvl =>
    have hp : p ∈ ownedPins t := by simpa [ownedAction] using ha
    exact { h with
      unowned := fun q hq => (Pins.get_set_of_ne s.pins p q _ (ne_of_mem_of_not_mem hp hq)).trans (h.unowned q hq) }
  case i2cTx addr v =>
    obtain ⟨ht, -⟩ : t = .i2c ∧ s.i2cAddr = .val addr := by simpa [ownedAction] using ha
    exact { h with outElse := fun hne => absurd ht hne }
  case wait => exact h
  case setEmr v => exact { h with emr := ⟨v, rfl⟩ }
  case setDmr v => exact { h with dmr := ⟨v, rfl⟩ }

theorem BuiltInv.drawn (h : BuiltInv s t) : BuiltInv (drawn s) t := { h with }

theorem BuiltInv.afterAnswer (h : BuiltInv s t) (a : Action) : BuiltInv (afterAnswer s a) t := by
  unfold Machine.afterAnswer
  split
  · exact h.drawn
  · exact h

/-- The end of a request keeps what a built block holds. -/
theorem BuiltInv.finish (h : BuiltInv s t) (r : Resp) : BuiltInv (finish s r) t where
  tsel := by simpa using h.tsel
  emr := by simpa using h.emr
  dmr := by simpa using h.dmr
  addrOnI2c := by simpa using h.addrOnI2c
  addrElse := by simpa using h.addrElse
  outElse := by simpa using h.outElse
  unowned := by simpa using h.unowned
  owned := by simp

/-- A construction writes what a built block holds (43_init_sequencer.md R190). -/
theorem builtInv_constructed {addr : XVal Addr7} (h : UnbuiltInv s) (hacts : s.acts = []) (hi2c : t = .i2c → ∃ a, addr = .val a)
    (helse : t ≠ .i2c → addr = .x) : BuiltInv (constructed t addr s) t where
  tsel := rfl
  emr := ⟨_, rfl⟩
  dmr := ⟨_, rfl⟩
  addrOnI2c ht := by
    obtain ⟨a, rfl⟩ := hi2c ht
    exact ⟨a, rfl⟩
  addrElse ht := by
    rw [helse ht]
    exact h.addr
  outElse _ := h.out
  unowned p _ := by simp [h.pins]
  owned := by simp [hacts]

end BuiltInv

/-! ### The invariant: the moves of the block keep it -/

section Inv

variable {s u : State}

/-- The invariant does not speak of the host's side. -/
theorem Inv.of_sameBlock (h : Inv s) (hu : SameBlock s u) : Inv u := by
  obtain ⟨_, _, _, _, rfl⟩ := hu
  exact { h with
    unbuilt := fun hl => { h.unbuilt hl with }
    built := fun hl =>
      have ⟨t, ht⟩ := h.built hl
      ⟨t, { ht with }⟩ }

/-- While a request runs the block is built. -/
theorem Inv.built_of_busy (h : Inv s) (hb : s.busy = true) : ∃ t, BuiltInv s t := by
  obtain ⟨-, -, hl⟩ := h.running hb
  exact h.built (by rcases hl with hl | hl <;> simp [hl])

/-- A built block with a request running meets the invariant. -/
theorem inv_of_running {t : Transport} (hb : s.busy = true) (hr : s.resp = .none) (hpc : s.pc ≤ s.acts.length)
    (hl : s.life = .init ∨ s.life = .ready) (ht : BuiltInv s t) : Inv s where
  idle h := by simp [hb] at h
  running _ := ⟨hr, hpc, hl⟩
  init _ := hb
  absent h := by simp [h] at hl
  ready _ h := by simp [hb] at h
  unbuilt h := by simp [h] at hl
  built _ := ⟨t, ht⟩

/-- A request that ends leaves the block in READY, or in ABSENT with ERR (43_init_sequencer.md R196, R197). -/
theorem finish_life_cases {r : Resp} (hl : s.life = .init ∨ s.life = .ready) (hr : r = .ok ∨ r = .err) :
    (finish s r).life = .ready ∨ ((finish s r).life = .absent ∧ r = .err) := by
  rcases hl with hl | hl <;> rcases hr with rfl | rfl <;> simp [hl, lifeAtEnd]

/-- A request of a built block that ends with OK or ERR meets the invariant (42_controller_ops.md R150). -/
theorem inv_finish {t : Transport} {r : Resp} (hh : s.hung = false) (hl : s.life = .init ∨ s.life = .ready)
    (hr : r = .ok ∨ r = .err) (ht : BuiltInv s t) : Inv (finish s r) := by
  have hend := finish_life_cases hl hr
  exact
    { idle := fun _ => by simp [hh]
      running := fun h => by simp at h
      init := fun h => by simp [h, -finish_life] at hend
      absent := fun h => by simpa [h, -finish_life] using hend
      ready := fun _ _ => by rcases hr with rfl | rfl <;> simp
      unbuilt := fun h => by simp [h, -finish_life] at hend
      built := fun _ => ⟨t, ht.finish r⟩ }

/-- A request that starts in a built block meets the invariant. -/
theorem inv_startRequest {t : Transport} (hl : s.life = .init ∨ s.life = .ready) (ht : BuiltInv s t) (ms : List Micro) :
    Inv (startRequest s (expand s ms)) :=
  inv_of_running rfl rfl (Nat.zero_le _) hl { ht with owned := ht.expand_owned ms }

/-- Every move of the block keeps the invariant. -/
theorem Inv.of_blockStep {t : State} (h : Inv s) (hh : s.hung = false) (hm : BlockStep s t) : Inv t := by
  cases hm
  case hostOnly hu => exact h.of_sameBlock hu
  case operation ms hl hb hu =>
    have hlu := hu.life.trans hl
    obtain ⟨t, ht⟩ := (h.of_sameBlock hu).built (by simp [hlu])
    exact inv_startRequest (.inr hlu) ht ms
  case construction tr addr hl hb hi2c helse hu =>
    have hInv := h.of_sameBlock hu
    obtain ⟨hacts, -, -⟩ := hInv.idle (hu.busy.trans hb)
    exact inv_startRequest (.inl rfl) (builtInv_constructed (hInv.unbuilt (hu.life.trans hl)) hacts hi2c helse) _
  case word w hb _ hu =>
    have hInv := h.of_sameBlock hu
    have hbu := hu.busy.trans hb
    obtain ⟨t, ht⟩ := hInv.built_of_busy hbu
    obtain ⟨hr, hpc, hl⟩ := hInv.running hbu
    exact inv_of_running hbu hr (hpc.trans (by simp)) hl
      { ht with owned := List.forall_mem_append.mpr ⟨ht.owned, ht.wordActions_owned w⟩ }
  case complete a hb ha =>
    obtain ⟨t, ht⟩ := h.built_of_busy hb
    obtain ⟨hr, -, hl⟩ := h.running hb
    obtain ⟨hpc, -⟩ := List.getElem?_eq_some_iff.mp ha
    have hta : BuiltInv (applyAction (afterAnswer s a) a) t :=
      (ht.afterAnswer a).applyAction (by simpa using ht.owned a (List.mem_of_getElem? ha))
    exact inv_of_running (by simpa using hb) (by simpa using hr) (by simpa using hpc) (by simpa using hl) (t := t) { hta with }
  case fail a took hb ha hf =>
    obtain ⟨t, ht⟩ := h.built_of_busy hb
    obtain ⟨-, -, hl⟩ := h.running hb
    have hta : BuiltInv (if took then applyAction (drawn s) a else drawn s) t := by
      cases took
      · exact ht.drawn
      · exact ht.drawn.applyAction (ht.owned a (List.mem_of_getElem? ha))
    refine inv_finish (t := t) ?_ ?_ (.inr rfl) { hta with }
    · cases took <;> simpa using hh
    · cases took <;> simpa using hl
  case hang a hb ha _ =>
    obtain ⟨t, ht⟩ := h.built_of_busy hb
    obtain ⟨hr, hpc, hl⟩ := h.running hb
    exact inv_of_running hb hr hpc hl (t := t) { ht with }
  case done hb _ =>
    obtain ⟨t, ht⟩ := h.built_of_busy hb
    obtain ⟨-, -, hl⟩ := h.running hb
    exact inv_finish hh hl (.inl rfl) ht

end Inv

/-- Settles O29: each move of the block keeps the invariant, and a step starts in a state that is not stuck. -/
theorem stepKeepsTheInvariant : Obligations.StepKeepsTheInvariant := by
  intro s t hInv h
  obtain ⟨hh, hm⟩ := blockStep_of_step h
  exact hInv.of_blockStep hh hm

/-- Settles O30: only the acceptance of a construction and the end of a request write `LIFE`. -/
theorem lifecycleEdges : Obligations.LifecycleEdges := by
  intro s t h
  obtain ⟨-, hm⟩ := blockStep_of_step h
  cases hm
  case hostOnly hu => exact .inl hu.life
  case operation hu => exact .inl hu.life
  case construction hl _ _ _ _ => exact .inr (.inl ⟨hl, rfl, rfl⟩)
  case word hu => exact .inl hu.life
  case complete => exact .inl (by simp)
  case fail =>
    obtain he | ⟨hl, he⟩ := lifeAtEnd_cases s.life false
    · exact .inl (by simpa using he)
    · exact .inr (.inr (.inr ⟨hl, by simpa using he, by simp⟩))
  case hang => exact .inl rfl
  case done =>
    obtain he | ⟨hl, he⟩ := lifeAtEnd_cases s.life true
    · exact .inl (by simpa using he)
    · exact .inr (.inr (.inl ⟨hl, by simpa using he, by simp⟩))

/-- Settles O31: only the acceptance of a construction, from UNBUILT, writes the selection; no move writes the parameters. -/
theorem selectionIsFixed : Obligations.SelectionIsFixed := by
  intro s t h
  obtain ⟨-, hm⟩ := blockStep_of_step h
  cases hm
  case hostOnly hu => exact ⟨hu.params, fun _ => ⟨hu.tsel, hu.i2cAddr⟩⟩
  case operation hu => exact ⟨hu.params, fun _ => ⟨hu.tsel, hu.i2cAddr⟩⟩
  case construction hl _ _ _ hu => exact ⟨hu.params, fun hne => absurd hl hne⟩
  case word hu => exact ⟨hu.params, fun _ => ⟨hu.tsel, hu.i2cAddr⟩⟩
  all_goals simp

/-- Settles O32: of the moves, only a completed shadow write and a construction write EMR or DMR. -/
theorem shadowRegistersWrittenOnlyBySetters : Obligations.ShadowRegistersWrittenOnlyBySetters := by
  intro s t h
  obtain ⟨-, hm⟩ := blockStep_of_step h
  cases hm
  case hostOnly hu => exact ⟨.inl hu.emr, .inl hu.dmr⟩
  case operation hu => exact ⟨.inl hu.emr, .inl hu.dmr⟩
  case construction hl _ _ _ _ => exact ⟨.inr (.inr ⟨hl, rfl, rfl⟩), .inr (.inr ⟨hl, rfl, rfl⟩)⟩
  case word hu => exact ⟨.inl hu.emr, .inl hu.dmr⟩
  case complete a hb ha =>
    constructor
    · obtain he | ⟨v, rfl⟩ := applyAction_emr_cases (afterAnswer s a) a
      · exact .inl (by simpa using he)
      · exact .inr (.inl ⟨hb, v, ha, by simp⟩)
    · obtain he | ⟨v, rfl⟩ := applyAction_dmr_cases (afterAnswer s a) a
      · exact .inl (by simpa using he)
      · exact .inr (.inl ⟨hb, v, ha, by simp⟩)
  case fail a took _ _ hf =>
    obtain ⟨hemr, hdmr⟩ := errorEntry_shadow_of_fallible (drawn s) took hf
    exact ⟨.inl hemr, .inl hdmr⟩
  case hang => exact ⟨.inl rfl, .inl rfl⟩
  case done => exact ⟨.inl (by simp), .inl (by simp)⟩

/-- Settles O33: with a request running and no bus word waiting, a step is the end of the list or one action's outcome. -/
theorem actionPointerMoves : Obligations.ActionPointerMoves := by
  intro s t hr h
  obtain rfl : runAction s = t := by simpa [step_of_running hr] using h
  obtain ⟨-, hb, -⟩ := hr
  obtain ⟨-, he⟩ | ⟨a, ha, he⟩ := runAction_cases s <;> rw [he]
  · exact .inr (.inl (by simp))
  · obtain he | ⟨took, -, he⟩ | ⟨-, he⟩ := runOne_cases s a <;> rw [he]
    · exact .inl ⟨a, ha, by simp [hb]⟩
    · exact .inr (.inl (by simp))
    · exact .inr (.inr (by simp [hb]))

/-- Settles O34: the end with OK and the error entry are the moves that clear BUSY, and the only ones that respond. -/
theorem oneResponsePerRequest : Obligations.OneResponsePerRequest := by
  intro s t h
  obtain ⟨-, hm⟩ := blockStep_of_step h
  cases hm
  case hostOnly hu => simp [hu.busy, hu.responses]
  case operation hu => simpa using hu.responses
  case construction hu => simpa using hu.responses
  case word hu => simp [hu.busy, hu.responses]
  case complete => simp
  case fail hb _ _ => simp [hb]
  case hang => simp
  case done hb _ => simp [hb]

/-! ### No step reads the outputs -/

/-- Any pin levels, `OUT` and trace in place of a state's own. -/
def withOutputs (ps : Pins) (o : XVal Byte) (tr : List Event) (s : State) : State := { s with pins := ps, out := o, trace := tr }

section Fields

variable (ps : Pins) (o : XVal Byte) (tr : List Event) (s : State)

@[simp] theorem withOutputs_life : (withOutputs ps o tr s).life = s.life := rfl
@[simp] theorem withOutputs_busy : (withOutputs ps o tr s).busy = s.busy := rfl
@[simp] theorem withOutputs_pc : (withOutputs ps o tr s).pc = s.pc := rfl
@[simp] theorem withOutputs_acts : (withOutputs ps o tr s).acts = s.acts := rfl
@[simp] theorem withOutputs_hung : (withOutputs ps o tr s).hung = s.hung := rfl
@[simp] theorem withOutputs_program : (withOutputs ps o tr s).program = s.program := rfl
@[simp] theorem withOutputs_pending : (withOutputs ps o tr s).pending = s.pending := rfl
@[simp] theorem withOutputs_busPort : (withOutputs ps o tr s).busPort = s.busPort := rfl
@[simp] theorem readTsel_withOutputs : readTsel (withOutputs ps o tr s) = readTsel s := rfl
@[simp] theorem requestRunning_withOutputs : requestRunning (withOutputs ps o tr s) = requestRunning s := rfl
@[simp] theorem answerFor_withOutputs (a : Action) : answerFor (withOutputs ps o tr s) a = answerFor s a := rfl

end Fields

/-- Two outcomes of the same kind, with the same reason, or with next states that differ at most in the outputs. -/
inductive AlikeOutcome : Host.Outcome State Fault Refusal → Host.Outcome State Fault Refusal → Prop
  | next {t t' : State} (h : SameButOutputs t t') : AlikeOutcome (.next t) (.next t')
  | fault (f : Fault) : AlikeOutcome (.fault f) (.fault f)
  | refused (r : Refusal) : AlikeOutcome (.refused r) (.refused r)

/-- Two moves that are the same, or run the same instruction in states that differ at most in the outputs. -/
inductive AlikeMove : Move → Move → Prop
  | instr (i : Instr) {t t' : State} (h : SameButOutputs t t') : AlikeMove (.instr i t) (.instr i t')
  | same (m : Move) : AlikeMove m m

section Outputs

variable {s s' : State}

theorem SameButOutputs.exists_withOutputs (h : SameButOutputs s s') : ∃ ps o tr, s' = withOutputs ps o tr s := ⟨_, _, _, h⟩

theorem acceptOp_alike (ms : List Micro) (h : SameButOutputs s s') : AlikeOutcome (acceptOp ms s) (acceptOp ms s') := by
  obtain ⟨ps, o, tr, rfl⟩ := h.exists_withOutputs
  unfold acceptOp
  rw [withOutputs_life, withOutputs_busy]
  cases s.life
  case ready =>
    cases s.busy
    · exact .next rfl
    · exact .refused _
  all_goals exact .refused _

theorem acceptConstruction_alike (t : Transport) (addr : XVal Addr7) (q : BitVec 2 → List Micro) (h : SameButOutputs s s') :
    AlikeOutcome (acceptConstruction t addr q s) (acceptConstruction t addr q s') := by
  obtain ⟨ps, o, tr, rfl⟩ := h.exists_withOutputs
  unfold acceptConstruction
  rw [withOutputs_life, withOutputs_busy]
  cases s.life
  case unbuilt =>
    cases s.busy
    · exact .next rfl
    · exact .refused _
  all_goals exact .refused _

theorem issueWord_alike (w : BusWord) (h : SameButOutputs s s') : AlikeOutcome (issueWord w s) (issueWord w s') := by
  obtain ⟨ps, o, tr, rfl⟩ := h.exists_withOutputs
  unfold issueWord
  rw [requestRunning_withOutputs]
  split
  · exact .next rfl
  · exact .refused _

theorem issueInit_alike (p8 p4 : Bool) (b : Byte) (h : SameButOutputs s s') :
    AlikeOutcome (issueInit p8 p4 b s) (issueInit p8 p4 b s') := by
  obtain ⟨ps, o, tr, rfl⟩ := h.exists_withOutputs
  unfold issueInit
  rw [withOutputs_life, readTsel_withOutputs]
  split
  · exact issueWord_alike _ h
  · exact .refused _

theorem issueBytes_alike (seq : List Byte) (h : SameButOutputs s s') : AlikeOutcome (issueBytes seq s) (issueBytes seq s') := by
  obtain ⟨ps, o, tr, rfl⟩ := h.exists_withOutputs
  cases seq with
  | nil => exact .next rfl
  | cons b rest => exact acceptOp_alike (dat b) rfl

/-- An instruction reads no output: each is one of the five acceptances. -/
theorem exec_alike (i : Instr) (h : SameButOutputs s s') : AlikeOutcome (exec i s) (exec i s') := by
  obtain ⟨ps, o, tr, rfl⟩ := h.exists_withOutputs
  cases i
  case new8bit | new4bit | newI2c => exact acceptConstruction_alike _ _ _ h
  case writeBytes | writeStr => exact issueBytes_alike _ h
  case busClear | busHome | busEntry | busDispctl | busShift | busSetddram | busData => exact issueWord_alike _ h
  case init33 | init32 | init28 | init30 | init38 | init0E | init01 | init07 | init80 => exact issueInit_alike _ _ _ h
  all_goals exact acceptOp_alike _ h

theorem SameButOutputs.applyAction (h : SameButOutputs s s') (a : Action) :
    SameButOutputs (applyAction s a) (applyAction s' a) := by
  obtain ⟨ps, o, tr, rfl⟩ := h.exists_withOutputs
  cases a <;> rfl

theorem SameButOutputs.drawn (h : SameButOutputs s s') : SameButOutputs (drawn s) (drawn s') := by
  obtain ⟨ps, o, tr, rfl⟩ := h.exists_withOutputs
  rfl

theorem SameButOutputs.afterAnswer (h : SameButOutputs s s') (a : Action) :
    SameButOutputs (afterAnswer s a) (afterAnswer s' a) := by
  unfold Machine.afterAnswer
  split
  · exact h.drawn
  · exact h

theorem SameButOutputs.recordEvent (h : SameButOutputs s s') (a : Action) (ans : Answer) :
    SameButOutputs (recordEvent s a ans) (recordEvent s' a ans) := by
  obtain ⟨ps, o, tr, rfl⟩ := h.exists_withOutputs
  rfl

theorem SameButOutputs.completeAction (h : SameButOutputs s s') (a : Action) :
    SameButOutputs (completeAction s a) (completeAction s' a) := by
  obtain ⟨ps, o, tr, rfl⟩ := h.exists_withOutputs
  cases a <;> rfl

theorem SameButOutputs.finish (h : SameButOutputs s s') (r : Resp) : SameButOutputs (finish s r) (finish s' r) := by
  obtain ⟨ps, o, tr, rfl⟩ := h.exists_withOutputs
  cases r
  case ok =>
    simp only [Machine.finish, hostReceive, endRequest, withOutputs_pending]
    split <;> rfl
  all_goals rfl

theorem SameButOutputs.errorEntry (h : SameButOutputs s s') (a : Action) (took : Bool) :
    SameButOutputs (errorEntry s a took) (errorEntry s' a took) := by
  cases took
  · exact (h.recordEvent a _).finish .err
  · exact ((h.applyAction a).recordEvent a _).finish .err

theorem SameButOutputs.hang (h : SameButOutputs s s') (a : Action) : SameButOutputs (hang s a) (hang s' a) := by
  obtain ⟨ps, o, tr, rfl⟩ := h.exists_withOutputs
  rfl

/-- The answer an action gets is drawn without the outputs, so it ends the same way. -/
theorem SameButOutputs.runOne (h : SameButOutputs s s') (a : Action) : SameButOutputs (runOne s a) (runOne s' a) := by
  obtain ⟨ps, o, tr, rfl⟩ := h.exists_withOutputs
  unfold Machine.runOne
  rw [answerFor_withOutputs]
  cases answerFor s a
  case ok => exact (h.afterAnswer a).completeAction a
  case err took => exact (h.afterAnswer a).errorEntry a took
  case hang => exact (h.afterAnswer a).hang a

theorem SameButOutputs.runAction (h : SameButOutputs s s') : SameButOutputs (runAction s) (runAction s') := by
  obtain ⟨ps, o, tr, rfl⟩ := h.exists_withOutputs
  unfold Machine.runAction
  rw [withOutputs_acts, withOutputs_pc]
  cases s.acts[s.pc]?
  case none => exact h.finish .ok
  case some a => exact h.runOne a

theorem moveOfLine_alike (d : Except DecodeError Instr) (h : SameButOutputs s s') :
    AlikeMove (moveOfLine d s) (moveOfLine d s') := by
  cases d with
  | ok i => exact .instr i h
  | error e => exact .same _

theorem busyMove_alike (h : SameButOutputs s s') : AlikeMove (busyMove s) (busyMove s') := by
  obtain ⟨ps, o, tr, rfl⟩ := h.exists_withOutputs
  unfold busyMove
  rw [withOutputs_busPort]
  cases s.busPort with
  | nil => exact .same _
  | cons w rest => exact moveOfLine_alike _ rfl

theorem idleMove_alike (h : SameButOutputs s s') : AlikeMove (idleMove s) (idleMove s') := by
  obtain ⟨ps, o, tr, rfl⟩ := h.exists_withOutputs
  unfold idleMove
  rw [withOutputs_pending, withOutputs_program]
  cases s.pending with
  | cons b rest => exact .instr _ rfl
  | nil =>
    cases s.program with
    | nil => exact .same _
    | cons l rest => exact moveOfLine_alike _ rfl

/-- The next move is chosen without the outputs. -/
theorem nextMove_alike (h : SameButOutputs s s') : AlikeMove (nextMove s) (nextMove s') := by
  obtain ⟨ps, o, tr, rfl⟩ := h.exists_withOutputs
  unfold nextMove
  rw [withOutputs_hung, withOutputs_busy]
  split
  · exact .same _
  · split
    · exact busyMove_alike h
    · exact idleMove_alike h

theorem step_alike (h : SameButOutputs s s') : AlikeOutcome (step s) (step s') := by
  have hm := nextMove_alike h
  unfold step
  generalize nextMove s = m, nextMove s' = m' at hm
  cases hm
  case instr i _ _ ht => exact exec_alike i ht
  case same =>
    cases m
    case instr i t => exact exec_alike i rfl
    case action => exact .next h.runAction
    case idle => exact .next h
    case stuck => exact .fault _
    case refuse e => exact .refused _

end Outputs

/-- Settles O38: the two steps are alike, read off outcome by outcome. -/
theorem outputsAreNeverRead : Obligations.OutputsAreNeverRead := by
  intro s s' h
  have ha := step_alike h
  generalize step s = x, step s' = y at ha
  cases ha
  case next hs => exact ⟨_, rfl, hs⟩
  case fault => rfl
  case refused => rfl

/-! ### At reset -/

/-- Settles O28: nothing runs at reset, and every register is as it is before construction (10_state.md R41). -/
theorem resetMeetsTheInvariant : Obligations.ResetMeetsTheInvariant where
  idle _ := ⟨rfl, rfl, rfl⟩
  running := nofun
  init := nofun
  absent := nofun
  ready := nofun
  unbuilt _ := ⟨rfl, rfl, rfl, rfl, rfl, rfl, rfl, rfl⟩
  built h := absurd rfl h

/-- Settles O57: at reset no byte waits to be sent, and `OUT` holds its power-on value. -/
theorem resetKeepsWriteMode : Obligations.ResetKeepsWriteMode where
  acts := nofun
  out := .inl rfl

end Sys2Proof

/-! ## Encoding and decoding (30_encoding.md)

The request words row by row of R76, the bus words format by format of R72, R73 and R81: decoding gives back what was encoded, and
a word that decodes is the encoding of what it decodes to. -/

namespace Sys2Proof

open Machine Laws.EncodingSpace

/-! ### The settings as bits (30_encoding.md R77) -/

@[simp] theorem onOffOf_bit (b : Bool) : (onOffOf b).bit = BitVec.ofBool b := by cases b <;> rfl
@[simp] theorem moveOf_bit (b : Bool) : (moveOf b).bit = BitVec.ofBool b := by cases b <;> rfl
@[simp] theorem shiftOf_bit (b : Bool) : (shiftOf b).bit = BitVec.ofBool b := by cases b <;> rfl
@[simp] theorem targetOf_bit (b : Bool) : (targetOf b).bit = BitVec.ofBool b := by cases b <;> rfl

/-! ### Request words (30_encoding.md R76, R78) -/

/-- A request word is its OP and its ARG. -/
theorem requestWord_eta (w : RequestWord) : requestWord (reqOp w) (reqArg w) = w :=
  BitVec.extractLsb'_append_extractLsb'_eq_extractLsb' (by decide) |>.trans (by simp)

theorem argBelow_eq_ok {n : Nat} {op arg : Byte} {i j : Instr} :
    argBelow n op arg i = .ok j ↔ arg.toNat < 2 ^ n ∧ i = j := by
  unfold argBelow
  split <;> simp [*]

/-- A row of R76: OP, how many bits of ARG are free, and the instruction an ARG stands for. -/
structure RequestRow where
  op : Byte
  free : Nat
  instr : Byte → Instr

/-- The table of 30_encoding.md R76. -/
def requestRows : List RequestRow :=
  [⟨0x01#8, 0, fun _ => .clear⟩, ⟨0x02#8, 0, fun _ => .reset⟩,
    ⟨0x03#8, 3, fun x => .setDisplayMode (onOffOf (x.getLsbD 2)) (onOffOf (x.getLsbD 1)) (onOffOf (x.getLsbD 0))⟩,
    ⟨0x04#8, 1, fun x => .setDisplay (onOffOf (x.getLsbD 0))⟩,
    ⟨0x05#8, 1, fun x => .setCursorVisibility (onOffOf (x.getLsbD 0))⟩,
    ⟨0x06#8, 1, fun x => .setCursorBlink (onOffOf (x.getLsbD 0))⟩,
    ⟨0x07#8, 1, fun x => .setAutoscroll (onOffOf (x.getLsbD 0))⟩,
    ⟨0x08#8, 1, fun x => .setCursorMode (moveOf (x.getLsbD 0))⟩,
    ⟨0x09#8, 8, fun x => .setCursorPos x⟩,
    ⟨0x0A#8, 1, fun x => .shiftCursor (shiftOf (x.getLsbD 0))⟩,
    ⟨0x0B#8, 1, fun x => .shiftDisplay (shiftOf (x.getLsbD 0))⟩,
    ⟨0x0C#8, 8, fun x => .writeByte x⟩,
    ⟨0x10#8, 0, fun _ => .new8bit⟩, ⟨0x11#8, 0, fun _ => .new4bit⟩,
    ⟨0x12#8, 7, fun x => .newI2c (x.extractLsb' 0 7)⟩]

/-- The decoder reads the table: a word decodes to a row's instruction where its OP is the row's and its ARG uses only free
bits. Each branch of the decoder is one row; in the last, OP is no row's. -/
theorem decodeRequest_eq_ok {w : RequestWord} {i : Instr} :
    decodeRequest w = .ok i ↔
      ∃ r ∈ requestRows, reqOp w = r.op ∧ (reqArg w).toNat < 2 ^ r.free ∧ r.instr (reqArg w) = i := by
  simp only [decodeRequest]
  split <;> simp_all [requestRows, argBelow_eq_ok, BitVec.toNat_eq]

/-- An ARG of no free bit is 0. -/
theorem requestWord_of_noBit (op : Byte) {x : Byte} (h : x.toNat < 2 ^ 0) : requestWord op x = requestWord op 0#8 :=
  congrArg _ (BitVec.eq_of_toNat_eq (by simp; omega))

/-- An ARG of one free bit is that bit. -/
theorem argBit_eq {x : Byte} (h : x.toNat < 2 ^ 1) : argBit (BitVec.ofBool (x.getLsbD 0)) = x := by
  revert x; decide

/-- An ARG of three free bits is those bits. -/
theorem threeBits_eq {x : Byte} (h : x.toNat < 2 ^ 3) :
    0#5 ++ BitVec.ofBool (x.getLsbD 2) ++ BitVec.ofBool (x.getLsbD 1) ++ BitVec.ofBool (x.getLsbD 0) = x := by
  revert x; decide

/-- An ARG of seven free bits is those bits. -/
theorem sevenBits_eq {x : Byte} (h : x.toNat < 2 ^ 7) : 0#1 ++ x.extractLsb' 0 7 = x := by
  revert x; decide

/-- Every row's instruction encodes to the row's OP and the ARG it was read from. -/
theorem encode_requestRow {r : RequestRow} {x : Byte} (hr : r ∈ requestRows) (hx : x.toNat < 2 ^ r.free) :
    encode (r.instr x) = .host (.request (requestWord r.op x)) := by
  simp only [requestRows, List.mem_cons, List.not_mem_nil, or_false] at hr
  rcases hr with rfl | rfl | rfl | rfl | rfl | rfl | rfl | rfl | rfl | rfl | rfl | rfl | rfl | rfl | rfl
  all_goals
    simp (disch := exact hx) only [encode, onOffOf_bit, moveOf_bit, shiftOf_bit, requestWord_of_noBit, argBit_eq, threeBits_eq,
      sevenBits_eq]

theorem encode_of_decodeRequest {w : RequestWord} {i : Instr} (h : decodeRequest w = .ok i) : encode i = .host (.request w) := by
  obtain ⟨r, hr, hop, harg, rfl⟩ := decodeRequest_eq_ok.mp h
  rw [encode_requestRow hr harg, ← hop, requestWord_eta]

/-! ### Bus words (30_encoding.md R72, R73) -/

/-- A word with the marker bit 8 is DATA (R73). -/
theorem dataFormat_eq {w : BusWord} (h8 : w.getLsbD 8) : 1#1 ++ w.extractLsb' 0 8 = w := by
  revert w; decide

/-- The highest marker is bit 7: SETDDRAM. -/
theorem setddramFormat_eq {w : BusWord} (h8 : ¬ w.getLsbD 8) (h7 : w.getLsbD 7) : 0b01#2 ++ w.extractLsb' 0 7 = w := by
  revert w; decide

/-- The highest marker is bit 4, and the two lowest bits are 0: SHIFT. -/
theorem shiftFormat_eq {w : BusWord} (h8 : ¬ w.getLsbD 8) (h7 : ¬ w.getLsbD 7) (h65 : ¬ (w.getLsbD 6 || w.getLsbD 5))
    (h4 : w.getLsbD 4) (h10 : ¬ (w.getLsbD 1 || w.getLsbD 0)) :
    0b00001#5 ++ BitVec.ofBool (w.getLsbD 3) ++ BitVec.ofBool (w.getLsbD 2) ++ 0#2 = w := by
  revert w; decide

/-- The highest marker is bit 3: DISPCTL. -/
theorem dispctlFormat_eq {w : BusWord} (h8 : ¬ w.getLsbD 8) (h7 : ¬ w.getLsbD 7) (h65 : ¬ (w.getLsbD 6 || w.getLsbD 5))
    (h4 : ¬ w.getLsbD 4) (h3 : w.getLsbD 3) :
    0b000001#6 ++ BitVec.ofBool (w.getLsbD 2) ++ BitVec.ofBool (w.getLsbD 1) ++ BitVec.ofBool (w.getLsbD 0) = w := by
  revert w; decide

/-- The highest marker is bit 2: ENTRY. -/
theorem entryFormat_eq {w : BusWord} (h8 : ¬ w.getLsbD 8) (h7 : ¬ w.getLsbD 7) (h65 : ¬ (w.getLsbD 6 || w.getLsbD 5))
    (h4 : ¬ w.getLsbD 4) (h3 : ¬ w.getLsbD 3) (h2 : w.getLsbD 2) :
    0b0000001#7 ++ BitVec.ofBool (w.getLsbD 1) ++ BitVec.ofBool (w.getLsbD 0) = w := by
  revert w; decide

/-- The formats are tried from the highest marker bit down, so each branch knows its marker and that those above are 0. -/
theorem encode_of_decodeBus {w : BusWord} {i : Instr} (h : decodeBus w = .ok i) : encode i = .bus (.bus w) := by
  unfold decodeBus at h
  split at h
  case isTrue h8 => cases h; rw [encode, dataFormat_eq h8]
  rename_i h8
  split at h
  case isTrue h7 => cases h; rw [encode, setddramFormat_eq h8 h7]
  rename_i h7
  split at h
  case isTrue => cases h
  rename_i h65
  split at h
  case isTrue h4 =>
    split at h <;> cases h
    rename_i h10
    rw [encode, targetOf_bit, shiftOf_bit, shiftFormat_eq h8 h7 h65 h4 h10]
  rename_i h4
  split at h
  case isTrue h3 => cases h; rw [encode, onOffOf_bit, onOffOf_bit, onOffOf_bit, dispctlFormat_eq h8 h7 h65 h4 h3]
  rename_i h3
  split at h
  case isTrue h2 => cases h; rw [encode, moveOf_bit, onOffOf_bit, entryFormat_eq h8 h7 h65 h4 h3 h2]
  split at h
  case isTrue hw => cases h; rw [encode, hw]
  split at h <;> cases h
  rename_i hw
  rw [encode, hw]

theorem encode_of_decodeInit {w : BusWord} {i : Instr} (h : decodeInit w = .ok i) : encode i = .bus (.init w) := by
  unfold decodeInit at h
  split at h <;> cases h
  all_goals simp [encode, ← BitVec.toNat_inj, *]

/-! ### Lines of the host (30_encoding.md R84) -/

theorem encode_of_decodeHost {l : HostLine} {i : Instr} (h : decodeHost l = .ok i) : encode i = .host l := by
  cases l
  case request w => exact encode_of_decodeRequest h
  case writeBytes seq => cases h; rfl
  all_goals
    simp only [decodeHost] at h
    split at h <;> cases h
    rfl

/-! ### Decode of encode, where an operand is read whole -/

theorem decodeRequest_setCursorPos (p : Byte) : decodeRequest (requestWord 0x09#8 p) = .ok (.setCursorPos p) := by
  simp [decodeRequest, argBelow, p.isLt]

theorem decodeRequest_writeByte (b : Byte) : decodeRequest (requestWord 0x0C#8 b) = .ok (.writeByte b) := by
  simp [decodeRequest, argBelow, b.isLt]

theorem decodeRequest_newI2c (a : Addr7) : decodeRequest (requestWord 0x12#8 (0#1 ++ a)) = .ok (.newI2c a) := by
  have hlt : (0#1 ++ a).toNat < 128 := by
    rw [BitVec.toNat_append]
    simpa using a.isLt
  have hlow : (0#1 ++ a).extractLsb' 0 7 = a := BitVec.extractLsb'_append_eq_right
  simp [decodeRequest, argBelow, hlt, hlow]

theorem decodeBus_setddram (a : Addr7) : decodeBus (0b01#2 ++ a) = .ok (.busSetddram a) := by
  have h8 : (0b01#2 ++ a).getLsbD 8 = false := BitVec.getLsbD_append.trans (by simp)
  have h7 : (0b01#2 ++ a).getLsbD 7 = true := BitVec.getLsbD_append.trans (by simp)
  have hlow : (0b01#2 ++ a).extractLsb' 0 7 = a := BitVec.extractLsb'_append_eq_right
  rw [decodeBus, h8, h7, hlow]
  rfl

theorem decodeBus_data (b : Byte) : decodeBus (1#1 ++ b) = .ok (.busData b) := by
  have h8 : (1#1 ++ b).getLsbD 8 = true := BitVec.getLsbD_append.trans (by simp)
  have hlow : (1#1 ++ b).extractLsb' 0 8 = b := BitVec.extractLsb'_append_eq_right
  rw [decodeBus, h8, hlow]
  rfl

/-- Settles O2: a setting is read back case by case, a whole operand by the lemma of its word, and a character by being a scalar
value. -/
theorem decodeOfEncode : Obligations.DecodeOfEncode := by
  intro i hwf
  cases i
  case setDisplayMode d c b => cases d <;> cases c <;> cases b <;> rfl
  case busDispctl d c b => cases d <;> cases c <;> cases b <;> rfl
  case busEntry md ds => cases md <;> cases ds <;> rfl
  case busShift tgt dir => cases tgt <;> cases dir <;> rfl
  case setDisplay v | setCursorVisibility v | setCursorBlink v | setAutoscroll v => cases v <;> rfl
  case setCursorMode d => cases d <;> rfl
  case shiftCursor d | shiftDisplay d => cases d <;> rfl
  case setCursorPos p => exact decodeRequest_setCursorPos p
  case writeByte b => exact decodeRequest_writeByte b
  case newI2c a => exact decodeRequest_newI2c a
  case busSetddram a => exact decodeBus_setddram a
  case busData b => exact decodeBus_data b
  case writeChar c => exact if_pos hwf
  case writeStr s => exact if_pos hwf
  all_goals rfl

/-- Settles O3: in each of the three spaces, decoding leaves no bit of the word unread. -/
theorem encodeOfDecode : Obligations.EncodeOfDecode :=
  ⟨fun _ _ h => encode_of_decodeRequest h, fun _ _ h => encode_of_decodeBus h, fun _ _ h => encode_of_decodeInit h⟩

/-- Settles O1: each word is computed to be the instruction of its row. -/
theorem tableWordsDecode : Obligations.TableWordsDecode :=
  ⟨rfl, rfl, rfl, rfl, rfl, rfl, rfl, rfl, rfl, rfl, rfl, rfl, rfl, rfl⟩

/-! ### Reserved request words (30_encoding.md R78) -/

/-- The fixed bits of a row as match and mask: all of OP, and the bits of ARG that are not free. -/
def RequestRow.pattern (r : RequestRow) : RequestWord × RequestWord :=
  (requestWord r.op 0#8, requestWord 0xFF#8 (0xFF#8 <<< r.free))

theorem requestWord_inj {op op' arg arg' : Byte} : requestWord op arg = requestWord op' arg' ↔ op = op' ∧ arg = arg' := by
  refine ⟨fun h => ⟨?_, ?_⟩, by rintro ⟨rfl, rfl⟩; rfl⟩
  · simpa using congrArg reqOp h
  · simpa using congrArg reqArg h

theorem requestWord_and (op op' arg arg' : Byte) :
    requestWord op arg &&& requestWord op' arg' = requestWord (op &&& op') (arg &&& arg') := BitVec.and_append

/-- The bits from `n` up are 0 exactly in a byte below `2 ^ n`. -/
theorem and_shiftLeft_eq_zero_iff (x : Byte) (n : Nat) : x &&& 0xFF#8 <<< n = 0#8 ↔ x.toNat < 2 ^ n := by
  have hle : x.toNat / 2 ^ n * 2 ^ n < 2 ^ 8 := (Nat.div_mul_le_self ..).trans_lt x.isLt
  have hnat : (x &&& 0xFF#8 <<< n).toNat = x.toNat / 2 ^ n * 2 ^ n := by
    rw [← Nat.mod_eq_of_lt hle, ← Nat.shiftRight_eq_div_pow, ← Nat.shiftLeft_eq, ← BitVec.toNat_ushiftRight,
      ← BitVec.toNat_shiftLeft, BitVec.shiftLeft_ushiftRight]
    rfl
  rw [← BitVec.toNat_inj, hnat]
  simp

/-- A word matches a row's pattern when its OP is the row's and its ARG uses free bits only. -/
theorem and_pattern_eq_iff (w : RequestWord) (r : RequestRow) :
    w &&& r.pattern.2 = r.pattern.1 ↔ reqOp w = r.op ∧ (reqArg w).toNat < 2 ^ r.free := by
  have hand : w &&& r.pattern.2 = requestWord (reqOp w) (reqArg w &&& 0xFF#8 <<< r.free) := by
    conv_lhs => rw [← requestWord_eta w]
    exact (requestWord_and ..).trans (congrArg (requestWord · _) (BitVec.and_allOnes (x := reqOp w)))
  rw [hand, ← and_shiftLeft_eq_zero_iff]
  exact requestWord_inj

/-- A request word decodes exactly when it matches the pattern of a row (R78). -/
theorem decodeRequest_ok_iff_pattern (w : RequestWord) :
    (∃ i, decodeRequest w = .ok i) ↔ ∃ p ∈ requestRows.map RequestRow.pattern, w &&& p.2 = p.1 := by
  simp only [decodeRequest_eq_ok, List.mem_map]
  constructor
  · rintro ⟨_, r, hr, hop, harg, -⟩
    exact ⟨_, ⟨r, hr, rfl⟩, (and_pattern_eq_iff w r).mpr ⟨hop, harg⟩⟩
  · rintro ⟨_, ⟨r, hr, rfl⟩, hp⟩
    obtain ⟨hop, harg⟩ := (and_pattern_eq_iff w r).mp hp
    exact ⟨_, r, hr, hop, harg, rfl⟩

/-- With no request running and no byte owed, a next line that decodes to nothing is refused (R78). -/
theorem step_of_undecodable {s : State} {l : HostLine} {rest : List HostLine} {e : DecodeError} (hh : s.hung = false)
    (hb : s.busy = false) (hp : s.pending = []) (hl : s.program = l :: rest) (hd : decodeHost l = .error e) :
    step s = .refused (.undecodable e) := by
  simp [step, nextMove, idleMove, moveOfLine, hh, hb, hp, hl, hd]

/-- Settles O4: the patterns of the statement are those of the table's rows, and a word that fits none decodes to an error. -/
theorem reservedRequestsRefused : Obligations.ReservedRequestsRefused := by
  intro w s rest hh hb hp hl
  have hfits := decodeRequest_ok_iff_pattern w
  refine ⟨hfits, fun hno => ?_⟩
  cases hd : decodeRequest w with
  | ok i => exact absurd (hfits.mp ⟨i, hd⟩) hno
  | error e => exact ⟨e, step_of_undecodable hh hb hp hl hd⟩

end Sys2Proof

/-! ## Bus words, init literals and placed instructions (30_encoding.md R79, R81, R85) -/

namespace Sys2Proof.Machine

open Sys2Proof

/-! ### The init literals (30_encoding.md R81) -/

theorem issueWord_of_idle {w : BusWord} {s : State} (hb : s.busy = false) : issueWord w s = .refused .noRequestRunning := by
  simp [issueWord, requestRunning, hb]

theorem issueInit_outside {p8 p4 : Bool} {b : Byte} {s : State} (hl : s.life ≠ .init) :
    issueInit p8 p4 b s = .refused .notInitPath :=
  if_neg fun h => hl h.1

theorem issueInit_offPath {p8 p4 : Bool} {b : Byte} {s : State} (hp : sentOn p8 p4 (readTsel s) = false) :
    issueInit p8 p4 b s = .refused .notInitPath :=
  if_neg fun h => by simp [hp] at h

/-- Within an init sequence a literal of its path joins the running list. -/
theorem issueInit_onPath {p8 p4 : Bool} {b : Byte} {s : State} (hb : s.busy = true) (hl : s.life = .init)
    (hp : sentOn p8 p4 (readTsel s) = true) :
    issueInit p8 p4 b s = .next { s with acts := s.acts ++ wordActions s (busWord false b) } :=
  (issueInit_of_init hl hp).trans (issueWord_of_running hb (.inl hl))

theorem issueInit_of_idle {p8 p4 : Bool} {b : Byte} {s : State} (hb : s.busy = false) :
    ∃ r, issueInit p8 p4 b s = .refused r := by
  unfold issueInit
  split
  · exact ⟨_, issueWord_of_idle hb⟩
  · exact ⟨_, rfl⟩

/-- An init literal is one byte, on the paths that send it (R81): an emittable one. -/
theorem exec_initLiteral {i : Instr} (hk : i.kind = .initLiteral) :
    ∃ p8 p4 b, emittableWord (busWord false b) = true ∧ exec i = issueInit p8 p4 b := by
  cases i <;> simp only [Instr.kind, reduceCtorEq] at hk
  all_goals exact ⟨_, _, _, by decide, rfl⟩

theorem sentOn_p8 {p8 p4 : Bool} {s : State} (ht : s.tsel = .val .p8) : sentOn p8 p4 (readTsel s) = p8 := by
  simp [readTsel, ht, sentOn, onPath8]

theorem sentOn_path4 {p8 p4 : Bool} {s : State} (ht : s.tsel = .val .p4 ∨ s.tsel = .val .i2c) :
    sentOn p8 p4 (readTsel s) = p4 := by
  rcases ht with ht | ht <;> simp [readTsel, ht, sentOn, onPath8]

theorem sentOn_both (t : Transport) : sentOn true true t = true := by cases t <;> rfl

end Sys2Proof.Machine

namespace Sys2Proof

open Machine

/-- Settles O16: by what handing a literal in does outside an init sequence, on the other path, and on its own. -/
theorem initLiteralsJoinTheInit : Obligations.InitLiteralsJoinTheInit := by
  refine ⟨fun i s hk => ?_, fun s => ⟨fun ht => ?_, fun ht => ?_⟩, fun s hb hl => ⟨fun ht => ?_, fun ht => ?_, ?_⟩⟩
  · obtain ⟨p8, p4, b, -, hi⟩ := exec_initLiteral hk
    rw [hi]
    exact ⟨issueInit_outside, issueInit_of_idle⟩
  · have off (b : Byte) := issueInit_offPath (p4 := true) (b := b) (sentOn_p8 ht)
    exact ⟨off _, off _, off _, off _⟩
  · have off (b : Byte) := issueInit_offPath (p8 := true) (b := b) (sentOn_path4 ht)
    exact ⟨off _, off _, off _⟩
  · have on (b : Byte) := issueInit_onPath (p8 := false) (b := b) hb hl (sentOn_path4 ht)
    exact ⟨on _, on _, on _, on _⟩
  · have on (b : Byte) := issueInit_onPath (p4 := false) (b := b) hb hl (sentOn_p8 ht)
    exact ⟨on _, on _, on _⟩
  · have on (b : Byte) := issueInit_onPath (b := b) hb hl (sentOn_both _)
    exact ⟨on _, on _⟩

/-! ### Equivalent requests (30_encoding.md R85) -/

theorem readDmr_of_val {s : State} {m : BitVec 3} (h : s.dmr = .val m) : readDmr s = m := by
  simp [readDmr, h]

theorem lowByte_eq_ofNat (c : Scalar) : lowByte c = BitVec.ofNat 8 c.toNat :=
  BitVec.eq_of_toNat_eq (by simp [lowByte])

/-- ENC_SETDDRAM drops bit 7 of the position (40_encoders.md R102). -/
theorem encSetddram_and (p : Byte) : encSetddram (p &&& 0x7F#8) = encSetddram p := by
  rw [encSetddram, encSetddram, BitVec.and_assoc, BitVec.and_self]

/-- Settles O19: both sides of each equivalence are accepted with the same expansion. -/
theorem derivedEquivalences : Obligations.DerivedEquivalences := by
  intro s m v c p hm
  obtain rfl : readDmr s = m := readDmr_of_val hm
  refine ⟨rfl, rfl, rfl, fun _ => ?_, ?_⟩
  · rw [← lowByte_eq_ofNat]
    rfl
  · simp only [exec, execSetCursorPos, encSetddram_and]

end Sys2Proof

/-! ### What each part of the table loads (30_encoding.md R79) -/

namespace Sys2Proof.Machine

theorem emittable_data (b : Byte) : emittableWord (busWord true b) = true := by
  simp [emittableWord]

theorem emittable_encEntry (v : BitVec 2) : emittableWord (busWord false (encEntry v)) = true := by
  revert v; decide

theorem emittable_encDispctl (v : BitVec 3) : emittableWord (busWord false (encDispctl v)) = true := by
  revert v; decide

theorem emittable_encSetddram (p : Byte) : emittableWord (busWord false (encSetddram p)) = true := by
  revert p; decide

theorem emittable_encShift (tgt : ShiftTarget) (dir : ShiftDirection) :
    emittableWord (busWord false (encShift tgt dir)) = true := by
  cases tgt <;> cases dir <;> rfl

theorem emittable_initSeq (t : Transport) : ∀ w ∈ wordsOf (initSeq t emrAtConstruction), emittableWord w = true := by
  cases t <;> decide

/-- An operation is accepted with an expansion of exactly one bus word, an emittable one (42_controller_ops.md R151). -/
theorem exec_operation_eq {i : Instr} (hk : i.kind = .operation) (s : State) :
    ∃ ms w, wordsOf ms = [w] ∧ emittableWord w = true ∧ exec i s = acceptOp ms s := by
  cases i <;> simp only [Instr.kind, reduceCtorEq] at hk
  case clear | reset => exact ⟨_, _, rfl, by decide, rfl⟩
  case setDisplayMode | setDisplay | setCursorVisibility | setCursorBlink => exact ⟨_, _, rfl, emittable_encDispctl _, rfl⟩
  case setAutoscroll | setCursorMode => exact ⟨_, _, rfl, emittable_encEntry _, rfl⟩
  case setCursorPos => exact ⟨_, _, rfl, emittable_encSetddram _, rfl⟩
  case shiftCursor | shiftDisplay => exact ⟨_, _, rfl, emittable_encShift _ _, rfl⟩
  case writeByte => exact ⟨_, _, rfl, emittable_data _, rfl⟩

/-- A construction is accepted with the init sequence of its transport (43_init_sequencer.md R193). -/
theorem exec_construction_eq {i : Instr} (hk : i.kind = .construction) :
    ∃ t addr, exec i = acceptConstruction t addr (initSeq t) := by
  cases i <;> simp only [Instr.kind, reduceCtorEq] at hk
  all_goals exact ⟨_, _, rfl⟩

/-- A bus word is handed to the transport as it is: an emittable one (30_encoding.md R79). -/
theorem exec_busWord_eq {i : Instr} (hk : i.kind = .busWord) :
    ∃ w, emittableWord w = true ∧ exec i = issueWord w := by
  cases i <;> simp only [Instr.kind, reduceCtorEq] at hk
  case busClear | busHome => exact ⟨_, by decide, rfl⟩
  case busEntry => exact ⟨_, emittable_encEntry _, rfl⟩
  case busDispctl => exact ⟨_, emittable_encDispctl _, rfl⟩
  case busShift => exact ⟨_, emittable_encShift _ _, rfl⟩
  case busSetddram => exact ⟨_, emittable_encSetddram _, rfl⟩
  case busData => exact ⟨_, emittable_data _, rfl⟩

/-- A pseudo-instruction issued where an operation is accepted answers a next state (42_controller_ops.md R164 to R166). -/
theorem exec_pseudo_of_ready {i : Instr} {s : State} (hk : i.kind = .pseudo) (hl : s.life = .ready) (hb : s.busy = false) :
    ∃ u, exec i s = .next u := by
  have bytes (seq : List Byte) : ∃ u, issueBytes seq s = .next u := by
    cases seq with
    | nil => exact ⟨_, rfl⟩
    | cons b rest => exact ⟨_, acceptOp_of_ready hl hb⟩
  cases i <;> simp only [Instr.kind, reduceCtorEq] at hk
  case writeChar c => exact ⟨_, acceptOp_of_ready hl hb⟩
  case writeBytes seq => exact bytes seq
  case writeStr str => exact bytes (utf8 str)

theorem expand_word (s : State) (w : BusWord) : expand s [.word w] = wordActions s w :=
  List.append_nil _

end Sys2Proof.Machine

namespace Sys2Proof

open Machine

/-- Settles O54: part by part of the table, the items of the expansion are those the instruction is accepted with. -/
theorem onlyEmittableWords : Obligations.OnlyEmittableWords := by
  intro i s t h
  have word {w : BusWord} (hw : emittableWord w = true) : ∀ v ∈ wordsOf [.word w], emittableWord v = true := by
    simpa [wordsOf] using hw
  cases hk : i.kind
  case operation =>
    obtain ⟨ms, w, hws, hw, hi⟩ := exec_operation_eq hk s
    obtain ⟨-, -, rfl⟩ := acceptOp_next (hi.symm.trans h)
    exact ⟨ms, by simpa [hws] using hw, by simp [hws]⟩
  case construction =>
    obtain ⟨tr, addr, hi⟩ := exec_construction_eq hk
    obtain ⟨-, -, rfl⟩ := acceptConstruction_next ((congrFun hi s).symm.trans h)
    exact ⟨_, emittable_initSeq tr, nofun, fun _ => rfl, nofun, by simp⟩
  case pseudo =>
    obtain rfl | ⟨b, rest, -, -, rfl⟩ := exec_pseudo hk h
    · exact ⟨[], by simp [wordsOf], by simp⟩
    · exact ⟨dat b, by simp [dat, wordsOf, emittable_data], by simp⟩
  case busWord =>
    obtain ⟨w, hw, hi⟩ := exec_busWord_eq hk
    obtain ⟨-, -, rfl⟩ := issueWord_next ((congrFun hi s).symm.trans h)
    exact ⟨_, word hw, by simp [expand_word]⟩
  case initLiteral =>
    obtain ⟨p8, p4, b, hw, hi⟩ := exec_initLiteral hk
    obtain ⟨-, -, hnext⟩ := issueInit_next ((congrFun hi s).symm.trans h)
    obtain ⟨-, -, rfl⟩ := issueWord_next hnext
    exact ⟨_, word hw, by simp [expand_word]⟩

end Sys2Proof

/-! ### Placed instructions (log 13) -/

namespace Sys2Proof.Machine

/-- What placing an instruction and taking it leave alone: the lines and words behind it, the parameters, the script, the trace
and the outputs. -/
def SameSurroundings (s t : State) : Prop :=
  t.program = s.program ∧ t.busPort = s.busPort ∧ t.params = s.params ∧ t.env = s.env ∧ t.trace = s.trace ∧ t.pins = s.pins ∧
    t.out = s.out

theorem readyForHost_idle (d : Except DecodeError Instr) (s : State) :
    (readyForHost d s).hung = false ∧ (readyForHost d s).busy = false ∧ (readyForHost d s).pending = [] := by
  cases d with
  | error e => exact ⟨rfl, rfl, rfl⟩
  | ok i =>
    unfold readyForHost
    dsimp only
    split <;> exact ⟨rfl, rfl, rfl⟩

theorem readyForHost_surroundings (d : Except DecodeError Instr) (s : State) : SameSurroundings s (readyForHost d s) := by
  cases d with
  | error e => exact ⟨rfl, rfl, rfl, rfl, rfl, rfl, rfl⟩
  | ok i =>
    unfold readyForHost
    dsimp only
    split <;> exact ⟨rfl, rfl, rfl, rfl, rfl, rfl, rfl⟩

theorem readyForHost_life (i : Instr) (s : State) :
    (readyForHost (.ok i) s).life = if i.kind = .construction then .unbuilt else .ready := by
  unfold readyForHost
  dsimp only
  split <;> rfl

theorem readyForBus_hung (s : State) : (readyForBus s).hung = false := by
  unfold readyForBus
  dsimp only
  split <;> rfl

theorem readyForBus_surroundings (s : State) : SameSurroundings s (readyForBus s) := by
  unfold readyForBus
  dsimp only
  split <;> exact ⟨rfl, rfl, rfl, rfl, rfl, rfl, rfl⟩

theorem requestRunning_readyForBus (s : State) : requestRunning (readyForBus s) = true := by
  unfold readyForBus
  dsimp only
  split
  · assumption
  · rfl

/-- A literal stands on the init path of the transport the placing gives it (30_encoding.md R81). -/
theorem exec_initLiteral_onItsPath {i : Instr} (hk : i.kind = .initLiteral) (t : Transport) :
    ∃ p8 p4 b, sentOn p8 p4 (initTransport (.ok i) t) = true ∧ exec i = issueInit p8 p4 b := by
  cases i <;> simp only [Instr.kind, reduceCtorEq] at hk
  all_goals exact ⟨_, _, _, by cases t <;> rfl, rfl⟩

end Sys2Proof.Machine

namespace Sys2Proof

open Machine

/-! The part of the table an instruction belongs to, read off its line. -/

theorem kind_of_encode_host {i : Instr} {l : HostLine} (h : encode i = .host l) :
    i.kind = .operation ∨ i.kind = .construction ∨ i.kind = .pseudo := by
  cases i <;> cases h <;> simp [Instr.kind]

theorem kind_of_encode_bus {i : Instr} {w : BusWord} (h : encode i = .bus (.bus w)) : i.kind = .busWord := by
  cases i <;> cases h <;> rfl

theorem kind_of_encode_init {i : Instr} {w : BusWord} (h : encode i = .bus (.init w)) : i.kind = .initLiteral := by
  cases i <;> cases h <;> rfl

/-- A host line's instruction completes in the state made ready for it. -/
theorem exec_of_readyForHost {i : Instr} {t : State}
    (hk : i.kind = .operation ∨ i.kind = .construction ∨ i.kind = .pseudo)
    (hl : t.life = if i.kind = .construction then .unbuilt else .ready) (hb : t.busy = false) : ∃ u, exec i t = .next u := by
  rcases hk with hk | hk | hk
  · obtain ⟨ms, -, -, -, hi⟩ := exec_operation_eq hk t
    exact ⟨_, hi.trans (acceptOp_of_ready (by simpa [hk] using hl) hb)⟩
  · obtain ⟨tr, addr, hi⟩ := exec_construction_eq hk
    exact ⟨_, (congrFun hi t).trans (acceptConstruction_of_unbuilt (by simpa [hk] using hl) hb)⟩
  · exact exec_pseudo_of_ready hk (by simpa [hk] using hl) hb

/-- A line's instruction is what the step after its placing runs, and it completes there. -/
def RunsNext (l : Line) (i : Instr) (s : State) : Prop :=
  ∃ t u, step (placeLine l s) = exec i t ∧ exec i t = .next u ∧ SameSurroundings s t

theorem runsNext_host {l : HostLine} {i : Instr} (hd : decodeHost l = .ok i) (s : State) : RunsNext (.host l) i s := by
  obtain ⟨hh, hb, hp⟩ := readyForHost_idle (.ok i) s
  obtain ⟨-, hframe⟩ := readyForHost_surroundings (.ok i) s
  obtain ⟨u, hu⟩ := exec_of_readyForHost (t := { readyForHost (.ok i) s with program := s.program })
    (kind_of_encode_host (encode_of_decodeHost hd)) (readyForHost_life i s) hb
  refine ⟨_, u, ?_, hu, rfl, hframe⟩
  rw [placeLine, hd]
  exact step_of_hostLine hh hb hp rfl hd

theorem runsNext_bus {w : BusWord} {i : Instr} (hd : decodeBus w = .ok i) (s : State) : RunsNext (.bus (.bus w)) i s := by
  obtain ⟨hb, hl⟩ := requestRunning_iff.mp (requestRunning_readyForBus s)
  obtain ⟨hprog, -, hframe⟩ := readyForBus_surroundings s
  obtain ⟨v, -, hi⟩ := exec_busWord_eq (kind_of_encode_bus (encode_of_decodeBus hd))
  refine ⟨{ readyForBus s with busPort := s.busPort }, _, ?_, (congrFun hi _).trans (issueWord_of_running hb hl), hprog, rfl,
    hframe⟩
  exact step_of_busLine (readyForBus_hung s) hb rfl hd

theorem runsNext_init {w : BusWord} {i : Instr} (hd : decodeInit w = .ok i) (s : State) : RunsNext (.bus (.init w)) i s := by
  obtain ⟨hb, -⟩ := requestRunning_iff.mp (requestRunning_readyForBus s)
  obtain ⟨hprog, -, hframe⟩ := readyForBus_surroundings s
  obtain ⟨p8, p4, b, hsent, hi⟩ :=
    exec_initLiteral_onItsPath (kind_of_encode_init (encode_of_decodeInit hd)) (readTsel (readyForBus s))
  refine ⟨{ readyForInit (.ok i) s with busPort := s.busPort }, _, ?_,
    (congrFun hi _).trans (issueInit_onPath hb rfl hsent), hprog, rfl, hframe⟩
  rw [placeLine, hd]
  exact step_of_busLine (readyForBus_hung s) hb rfl hd

/-- A placed line is fetched next, in each of the three spaces. -/
theorem runsNext_of_decodeLine {l : Line} {i : Instr} (hd : decodeLine l = .ok i) (s : State) : RunsNext l i s := by
  rcases l with l | w | w
  · exact runsNext_host hd s
  · exact runsNext_bus hd s
  · exact runsNext_init hd s

theorem decodeLine_of_decodeTableWord {nbits w : Nat} {i : Instr} (h : decodeTableWord nbits w = some i) :
    decodeLine (tableLine nbits w) = .ok i := by
  unfold decodeTableWord at h
  cases hl : decodeLine (tableLine nbits w) <;> cases hl ▸ h
  rfl

/-- Settles O21: a table word is placed as the line it stands for. -/
theorem placedWordRunsNext : Obligations.PlacedWordRunsNext :=
  fun s _ _ _ h => runsNext_of_decodeLine (decodeLine_of_decodeTableWord h) s

end Sys2Proof

/-! ## What the LCD latches (41_transport.md R126, R127) -/

namespace Sys2Proof.Machine

open Sys2Proof

/-! ### The payload at its places (41_transport.md R121) -/

theorem getLsbD_bitAt (k j : Fin 8) (v : Bool) : (bitAt k v).getLsbD j.val = (decide (j = k) && v) := by
  revert k j v; decide

/-- On a bijective map the expander drives each line of a payload to its own bit (R121, R126). -/
theorem expanderLines_payload {p : Params} (hm : p.expMap.wf = true) (n : Nibble) (rs en : Bool) :
    expanderLines p (.val (payload p n rs en)) =
      ⟨bitLevel rs, .L, bitLevel en, bitLevel p.bl, bitLevel (n.getLsbD 3), bitLevel (n.getLsbD 2), bitLevel (n.getLsbD 1),
        bitLevel (n.getLsbD 0)⟩ := by
  have hfwd : p.expMap.pins.Nodup := of_decide_eq_true hm
  have hbwd : p.expMap.pins.reverse.Nodup := List.nodup_reverse.mpr hfwd
  simp only [ExpMap.pins, List.reverse_cons, List.reverse_nil, List.nil_append, List.cons_append, List.nodup_cons, List.mem_cons,
    List.not_mem_nil, or_false, not_or] at hfwd hbwd
  simp only [expanderLines, outLevel_val, payload, BitVec.getLsbD_or, getLsbD_bitAt]
  simp [hfwd, hbwd, bitLevel]

/-! ### The latch events of a stretch of the trace (R127) -/

/-- The pins after a stretch of the trace. -/
def pinsThrough (ps : Pins) (es : List Event) : Pins := es.foldl pinsAfter ps

/-- `OUT` after a stretch of the trace. -/
def outThrough (o : XVal Byte) (es : List Event) : XVal Byte := es.foldl outAfter o

theorem latchesFrom_append (p : Params) (t : Transport) (ps : Pins) (o : XVal Byte) (es fs : List Event) :
    latchesFrom p t ps o (es ++ fs) =
      latchesFrom p t ps o es ++ latchesFrom p t (pinsThrough ps es) (outThrough o es) fs := by
  induction es generalizing ps o with
  | nil => rfl
  | cons e es ih => simp [latchesFrom, pinsThrough, outThrough, ih]

/-- Where E is low before an event, nothing is latched. -/
theorem latchOf_of_low {before after : Lines} (h : before.e = .L) : latchOf before after = [] := by
  unfold latchOf
  rw [h]
  cases after.e <;> rfl

@[simp] theorem settled_self (l : Level) : settled l l = l := if_pos rfl

/-! ### The parallel transports -/

section Parallel

variable {p : Params} {t : Transport} {ps : Pins} {o : XVal Byte}

/-- On P8 and P4, E is the pin EN. -/
theorem linesOf_e (ht : t ≠ .i2c) : (linesOf p t ps o).e = ps.en := by
  cases t
  case i2c => exact absurd rfl ht
  all_goals rfl

theorem pinsAfter_en_of_ne {a : Action} (ha : ∀ l, a ≠ .drive .en l) : (pinsAfter ps (okEvent a)).en = ps.en := by
  cases a
  case drive q l =>
    exact Pins.get_set_of_ne ps q .en l.level fun hq => ha l (by rw [hq])
  all_goals rfl

/-- A stretch that does not drive EN, with EN low, latches nothing. -/
theorem latchesFrom_quiet (ht : t ≠ .i2c) (hen : ps.en = .L) {as : List Action} (has : ∀ l, Action.drive .en l ∉ as) :
    latchesFrom p t ps o (as.map okEvent) = [] := by
  induction as generalizing ps o with
  | nil => rfl
  | cons a as ih =>
    have ha : (pinsAfter ps (okEvent a)).en = .L :=
      (pinsAfter_en_of_ne fun l hl => has l (hl ▸ List.mem_cons_self)).trans hen
    rw [List.map_cons, latchesFrom, latchOf_of_low ((linesOf_e ht).trans hen),
      ih ha fun l hl => has l (List.mem_cons_of_mem _ hl)]
    rfl

/-- An enable pulse leaves the pins as they were, with EN low (R115). -/
theorem pinsThrough_pulse (hen : ps.en = .L) : pinsThrough ps (pulse.map okEvent) = ps := by
  cases ps
  cases hen
  rfl

theorem outThrough_pulse : outThrough o (pulse.map okEvent) = o := rfl

/-- An enable pulse latches the lines as they are (R115, R127). -/
theorem latchesFrom_pulse (ht : t ≠ .i2c) (hen : ps.en = .L) :
    latchesFrom p t ps o (pulse.map okEvent) = [⟨(linesOf p t ps o).rs, (linesOf p t ps o).data, true⟩] := by
  cases t
  case i2c => exact absurd rfl ht
  all_goals simp [pulse, latchesFrom, okEvent, pinsAfter, tookEffect, Pins.set, linesOf, latchOf, hen, Drv.level]

theorem pinsThrough_en_of_quiet (hen : ps.en = .L) {as : List Action} (has : ∀ l, Action.drive .en l ∉ as) :
    (pinsThrough ps (as.map okEvent)).en = .L := by
  induction as generalizing ps with
  | nil => exact hen
  | cons a as ih =>
    exact ih ((pinsAfter_en_of_ne fun l hl => has l (hl ▸ List.mem_cons_self)).trans hen)
      fun l hl => has l (List.mem_cons_of_mem _ hl)

/-- A stretch that does not drive EN, a pulse, and the rest: the pulse latches the lines the stretch has set. -/
theorem latchesFrom_pulsed (ht : t ≠ .i2c) (hen : ps.en = .L) {as : List Action} (has : ∀ l, Action.drive .en l ∉ as)
    (rest : List Action) :
    latchesFrom p t ps o ((as ++ (pulse ++ rest)).map okEvent) =
      ⟨(linesOf p t (pinsThrough ps (as.map okEvent)) (outThrough o (as.map okEvent))).rs,
          (linesOf p t (pinsThrough ps (as.map okEvent)) (outThrough o (as.map okEvent))).data, true⟩ ::
        latchesFrom p t (pinsThrough ps (as.map okEvent)) (outThrough o (as.map okEvent)) (rest.map okEvent) := by
  have hen' := pinsThrough_en_of_quiet hen has
  rw [List.map_append, List.map_append, latchesFrom_append, latchesFrom_append, latchesFrom_quiet ht hen has,
    latchesFrom_pulse ht hen', pinsThrough_pulse hen', outThrough_pulse]
  rfl

theorem en_notMem_nib4 (n : Nibble) (l : Drv) : Action.drive .en l ∉ nib4 n := by simp [nib4]

theorem en_notMem_dropRs (d : Bool) (l : Drv) : Action.drive .en l ∉ dropRs d := by cases d <;> simp [dropRs]

/-- One P8 write latches its byte (R116). -/
theorem latchesFrom_p8Write (hen : ps.en = .L) (b : Byte) (d : Bool) :
    latchesFrom p .p8 ps o ((p8Write b d).map okEvent) =
      [⟨bitLevel d, [7, 6, 5, 4, 3, 2, 1, 0].map fun j => bitLevel (b.getLsbD j), true⟩] := by
  rw [p8Write, List.append_assoc, latchesFrom_pulsed (by simp) hen (by simp),
    latchesFrom_quiet (by simp) (pinsThrough_en_of_quiet hen (by simp)) (en_notMem_dropRs d)]
  simp [linesOf, pinsThrough, pinsAfter, okEvent, tookEffect, Pins.set]

/-- One P4 write latches the upper nibble and then the lower one, with RS the same (R118, R119). -/
theorem latchesFrom_p4Write (hen : ps.en = .L) (b : Byte) (d : Bool) :
    latchesFrom p .p4 ps o ((p4Write b d).map okEvent) =
      [⟨bitLevel d, [7, 6, 5, 4].map fun j => bitLevel (b.getLsbD j), true⟩,
        ⟨bitLevel d, [3, 2, 1, 0].map fun j => bitLevel (b.getLsbD j), true⟩] := by
  have hup (l : Drv) : Action.drive .en l ∉ .drive .rs (drv d) :: nib4 (upperNibble b) := by simp [en_notMem_nib4]
  have hen1 := pinsThrough_en_of_quiet hen hup
  have hen2 := pinsThrough_en_of_quiet hen1 (en_notMem_nib4 (lowerNibble b))
  rw [p4Write, List.append_assoc, List.append_assoc, List.append_assoc, latchesFrom_pulsed (by simp) hen hup,
    latchesFrom_pulsed (by simp) hen1 (en_notMem_nib4 _), latchesFrom_quiet (by simp) hen2 (en_notMem_dropRs d)]
  simp [linesOf, pinsThrough, pinsAfter, okEvent, tookEffect, Pins.set, nib4, upperNibble, lowerNibble]

end Parallel

/-! ### The expander -/

section Expander

variable {p : Params} {ps : Pins} {v : Byte}

theorem enLow_iff : enLow p v = true ↔ (expanderLines p (.val v)).e = .L := by
  simp only [enLow, expanderLines, outLevel_val]
  cases v.getLsbD p.expMap.en.val <;> simp [bitLevel]

theorem enLow_payload (hm : p.expMap.wf = true) (n : Nibble) (rs : Bool) : enLow p (payload p n rs false) = true :=
  enLow_iff.mpr (by rw [expanderLines_payload hm]; rfl)

theorem pinsThrough_i2cNib (a : Addr7) (n : Nibble) (d : Bool) : pinsThrough ps ((i2cNib p a n d).map okEvent) = ps := by
  unfold i2cNib
  split <;> rfl

theorem outThrough_i2cNib (o : XVal Byte) (a : Addr7) (n : Nibble) (d : Bool) :
    outThrough o ((i2cNib p a n d).map okEvent) = .val (payload p n d false) := by
  unfold i2cNib
  split <;> rfl

/-- One nibble on I2C latches that nibble (R122): its payload raises E, and the next lets it fall with every line as it was. -/
theorem latchesFrom_i2cNib (hm : p.expMap.wf = true) (hv : enLow p v = true) (a : Addr7) (n : Nibble) (d : Bool) :
    latchesFrom p .i2c ps (.val v) ((i2cNib p a n d).map okEvent) =
      [⟨bitLevel d, [3, 2, 1, 0].map fun j => bitLevel (n.getLsbD j), true⟩] := by
  have hlow : (expanderLines p (.val v)).e = .L := enLow_iff.mp hv
  cases hn : p.nibbleSeq <;>
    simp [i2cNib, hn, latchesFrom, okEvent, pinsAfter, outAfter, tookEffect, linesOf_i2c, expanderLines_payload hm, latchOf, hlow,
      bitLevel]

/-- One I2C write latches the upper nibble and then the lower one; the trailer, with E low, latches nothing (R123). -/
theorem latchesFrom_i2cWrite (hm : p.expMap.wf = true) (hv : enLow p v = true) (a : Addr7) (b : Byte) (d : Bool) :
    latchesFrom p .i2c ps (.val v) ((i2cWrite p a b d).map okEvent) =
      [⟨bitLevel d, [7, 6, 5, 4].map fun j => bitLevel (b.getLsbD j), true⟩,
        ⟨bitLevel d, [3, 2, 1, 0].map fun j => bitLevel (b.getLsbD j), true⟩] := by
  have hlow (n : Nibble) := enLow_payload hm n d
  have htrailer (c : Bool) (x : Byte) : latchesFrom p .i2c ps (.val (payload p (lowerNibble b) d false))
      ((if c then [Action.i2cTx a x] else []).map okEvent) = [] := by
    cases c
    · rfl
    · exact congrArg (· ++ []) (latchOf_of_low (enLow_iff.mp (hlow _)))
  rw [i2cWrite, List.append_assoc, List.map_append, List.map_append, latchesFrom_append, latchesFrom_append,
    latchesFrom_i2cNib hm hv, outThrough_i2cNib, pinsThrough_i2cNib, latchesFrom_i2cNib hm (hlow _), outThrough_i2cNib,
    pinsThrough_i2cNib, htrailer]
  simp [upperNibble, lowerNibble]

end Expander

end Sys2Proof.Machine

namespace Sys2Proof

open Machine

/-- Settles O49: on each transport, what one write latches from a state with E low. -/
theorem latchedTransfers : Obligations.LatchedTransfers := by
  intro p a ps o b d hen hm ho
  simp only [busWrite, busByte_busWord, isData_busWord]
  exact ⟨latchesFrom_p8Write hen b d, latchesFrom_p4Write hen b d, latchesFrom_i2cWrite hm ho a b d⟩

end Sys2Proof

/-! ## The setting encoders (40_encoders.md R100, R101) -/

namespace Sys2Proof

open Machine

@[simp] theorem onOffOf_eq_on_iff (b : Bool) : onOffOf b = .on ↔ b = true := by cases b <;> decide

@[simp] theorem moveOf_eq_increment_iff (b : Bool) : moveOf b = .increment ↔ b = true := by cases b <;> decide

/-- The ENTRY byte by the fields of EMR (10_state.md R28). -/
theorem encEntry_eq_fields (v : BitVec 2) :
    encEntry v = 0x04#8 ||| (if emrMd v = .increment then 0x02#8 else 0) ||| (if emrDs v = .on then 0x01#8 else 0) := by
  simp only [encEntry, emrMd, emrDs, moveOf_eq_increment_iff, onOffOf_eq_on_iff]

/-- The DISPCTL byte by the fields of DMR (10_state.md R31). -/
theorem encDispctl_eq_fields (v : BitVec 3) :
    encDispctl v = 0x08#8 ||| (if dmrDisp v = .on then 0x04#8 else 0) ||| (if dmrCur v = .on then 0x02#8 else 0)
      ||| (if dmrBlink v = .on then 0x01#8 else 0) := by
  simp only [encDispctl, dmrDisp, dmrCur, dmrBlink, onOffOf_eq_on_iff]

/-- Settles O5: each encoder goes by the fields of its register, and the fields read back what the register was made from. -/
theorem settingEncodersBits : Obligations.SettingEncodersBits := by
  refine ⟨fun md ds => ?_, fun d c b => ?_, rfl, rfl⟩
  · rw [encEntry_eq_fields, emrMd_emrOf, emrDs_emrOf]
  · rw [encDispctl_eq_fields, dmrDisp_dmrOf, dmrCur_dmrOf, dmrBlink_dmrOf]

end Sys2Proof

/-! ## The action lists of the transports (41_transport.md)

The payload's bits, the action lists of one bus write, and how a `Drive` and an `I2CTx` end; and the settled statements that rest on
them. -/

namespace Sys2Proof.Machine

open Sys2Proof

/-! ### The payload bit by bit (41_transport.md R121) -/

@[simp] theorem bitLevel_false : bitLevel false = .L := rfl

@[simp] theorem Drv.level_L : Drv.L.level = .L := rfl

theorem bitLevel_inj {a b : Bool} : bitLevel a = bitLevel b ↔ a = b := by
  cases a <;> cases b <;> decide

/-- The bits of a payload on a bijective map: the lines the expander drives, read back (R121, R126). -/
theorem payload_bits {p : Params} (hm : p.expMap.wf = true) (n : Nibble) (rs en : Bool) :
    (payload p n rs en).getLsbD p.expMap.rs.val = rs ∧ (payload p n rs en).getLsbD p.expMap.rw.val = false ∧
      (payload p n rs en).getLsbD p.expMap.en.val = en ∧ (payload p n rs en).getLsbD p.expMap.bl.val = p.bl ∧
      (payload p n rs en).getLsbD p.expMap.n0.val = n.getLsbD 0 ∧ (payload p n rs en).getLsbD p.expMap.n1.val = n.getLsbD 1 ∧
      (payload p n rs en).getLsbD p.expMap.n2.val = n.getLsbD 2 ∧ (payload p n rs en).getLsbD p.expMap.n3.val = n.getLsbD 3 := by
  have h := expanderLines_payload hm n rs en
  rw [← bitLevel_false] at h
  simp only [expanderLines, outLevel_val, ExpanderLines.mk.injEq, bitLevel_inj] at h
  obtain ⟨hrs, hrw, hen, hbl, h3, h2, h1, h0⟩ := h
  exact ⟨hrs, hrw, hen, hbl, h0, h1, h2, h3⟩

/-- With the default map the payload is the nibble, BL, EN, R/W and RS from the top down (00_scope.md R7). -/
theorem payload_of_default {p : Params} (hp : p.expMap = .default) (n : Nibble) (rs en : Bool) :
    payload p n rs en = n ++ BitVec.ofBool p.bl ++ BitVec.ofBool en ++ 0#1 ++ BitVec.ofBool rs := by
  simp only [payload, hp]
  generalize p.bl = bl
  revert n rs en bl
  decide

/-- A payload keeps write mode and the backlight (R121, 60_exceptions.md R227). -/
theorem writeModeByte_payload {p : Params} (hm : p.expMap.wf = true) (n : Nibble) (rs en : Bool) :
    writeModeByte p (payload p n rs en) = true := by
  obtain ⟨-, hrw, -, hbl, -⟩ := payload_bits hm n rs en
  simp only [writeModeByte, hrw, hbl, Bool.not_false, BEq.rfl, Bool.and_self]

/-! ### What a bus write sends to the expander -/

section Sent

variable {p : Params} {x : Addr7} {v : Byte}

theorem payload_of_mem_i2cNib {a : Addr7} {n : Nibble} {d : Bool} (h : Action.i2cTx x v ∈ i2cNib p a n d) :
    ∃ en, v = payload p n d en := by
  have hv : v = payload p n d false ∨ v = payload p n d true := by
    unfold i2cNib at h
    split at h <;> grind
  obtain h | h := hv
  · exact ⟨false, h⟩
  · exact ⟨true, h⟩

/-- Every byte a bus write sends is a payload (R122, R123). -/
theorem payload_of_mem_busWrite {t : Transport} {a : Addr7} {w : BusWord} (h : Action.i2cTx x v ∈ busWrite p t a w) :
    ∃ n rs en, v = payload p n rs en := by
  have howned := busWrite_owned p t a w _ h
  cases t
  case p8 | p4 => simp [ownedAction] at howned
  case i2c =>
    rw [busWrite, i2cWrite, List.mem_append, List.mem_append] at h
    obtain (h | h) | h := h
    · exact ⟨_, _, payload_of_mem_i2cNib h⟩
    · exact ⟨_, _, payload_of_mem_i2cNib h⟩
    · split at h
      · obtain ⟨-, rfl⟩ : x = a ∧ v = payload p (lowerNibble (busByte w)) false false := by simpa using h
        exact ⟨_, _, _, rfl⟩
      · cases h

/-- Every byte a list of actions sends keeps write mode and the backlight (60_exceptions.md R227). -/
def SendsWriteMode (p : Params) (as : List Action) : Prop :=
  ∀ a v, Action.i2cTx a v ∈ as → writeModeByte p v = true

theorem SendsWriteMode.append {as bs : List Action} (ha : SendsWriteMode p as) (hb : SendsWriteMode p bs) :
    SendsWriteMode p (as ++ bs) :=
  fun x v h => (List.mem_append.mp h).elim (ha x v) (hb x v)

theorem sendsWriteMode_busWrite (hm : p.expMap.wf = true) (t : Transport) (a : Addr7) (w : BusWord) :
    SendsWriteMode p (busWrite p t a w) := by
  intro x v h
  obtain ⟨n, rs, en, rfl⟩ := payload_of_mem_busWrite h
  exact writeModeByte_payload hm n rs en

/-- An expansion sends only what its bus words send. -/
theorem sendsWriteMode_expand {s : State} (hm : s.params.expMap.wf = true) (ms : List Micro) :
    SendsWriteMode s.params (expand s ms) := by
  intro x v h
  obtain ⟨m, -, hxm⟩ := List.mem_flatMap.mp h
  cases m
  case word w => exact sendsWriteMode_busWrite hm _ _ w x v hxm
  all_goals cases List.mem_singleton.mp hxm

/-- No move of the block adds an action that would raise R/W or change the backlight. -/
theorem sendsWriteMode_of_blockStep {s t : State} (hm : s.params.expMap.wf = true) (h : SendsWriteMode s.params s.acts)
    (hstep : BlockStep s t) : SendsWriteMode s.params t.acts := by
  cases hstep
  case hostOnly hu =>
    obtain ⟨_, _, _, _, rfl⟩ := hu
    exact h
  case operation ms _ _ hu =>
    rw [startRequest_acts, ← hu.params]
    exact sendsWriteMode_expand (hu.params ▸ hm) ms
  case construction tr addr _ _ _ _ hu =>
    rw [startRequest_acts, ← hu.params]
    exact sendsWriteMode_expand (s := constructed tr addr _) (hu.params ▸ hm) _
  case word w _ _ hu =>
    obtain ⟨_, _, _, _, rfl⟩ := hu
    exact h.append (sendsWriteMode_busWrite hm _ _ w)
  case complete => simpa using h
  case hang => exact h
  case fail | done => simp [SendsWriteMode]

/-- `OUT` at its power-on value, or holding a byte that keeps write mode and the backlight (10_state.md R38). -/
def OutKeepsWriteMode (p : Params) (o : XVal Byte) : Prop :=
  o = p.expReset ∨ ∃ v, o = .val v ∧ writeModeByte p v = true

/-- An event changes `OUT` only to the byte it sends. -/
theorem OutKeepsWriteMode.outAfter {o : XVal Byte} (h : OutKeepsWriteMode p o) {e : Event}
    (he : ∀ a v, e.action = .i2cTx a v → writeModeByte p v = true) : OutKeepsWriteMode p (outAfter o e) := by
  unfold Machine.outAfter
  split
  case h_1 a v hv =>
    split
    · exact .inr ⟨v, rfl, he a v hv⟩
    · exact h
  all_goals exact h

end Sent

end Sys2Proof.Machine

namespace Sys2Proof

open Machine

/-- Settles O58: what is loaded is made of payloads, and `OUT` changes only to a byte of the running list. -/
theorem stepKeepsWriteMode : Obligations.StepKeepsWriteMode := by
  intro s t hm hinv h
  obtain ⟨hacts, hout⟩ := hinv
  obtain ⟨hparams, -⟩ := selectionIsFixed s t h
  obtain ⟨-, hmove⟩ := blockStep_of_step h
  have hout' : OutKeepsWriteMode s.params t.out := by
    obtain ⟨-, -, ho⟩ | ⟨e, -, he, -, -, ho⟩ := outputsChangeOnlyByTracedActions s t h <;> rw [ho]
    · exact hout
    · exact OutKeepsWriteMode.outAfter hout fun a v hv => hacts a v (List.mem_of_getElem? (hv ▸ he))
  rw [← hparams] at hout'
  exact ⟨hparams ▸ sendsWriteMode_of_blockStep hm hacts hmove, hout'⟩

/-- Settles O6: bit by bit from the expander's lines, and the default map by its places. -/
theorem payloadLines : Obligations.PayloadLines := by
  intro p n rs en hm
  obtain ⟨hrs, hrw, hen, hbl, h0, h1, h2, h3⟩ := payload_bits hm n rs en
  exact ⟨hrs, hrw, hen, hbl, h0, h1, h2, h3, fun hp => payload_of_default hp n rs en⟩

/-- Settles O56: the wiring is the definition of the expander's lines, and a payload's lines are its bits. -/
theorem expanderWiring : Obligations.ExpanderWiring :=
  fun p n rs en _ _ hm => ⟨rfl, expanderLines_x p, expanderLines_payload hm n rs en, rfl⟩

end Sys2Proof

/-! ### Bus words handed in one by one (log 8) -/

namespace Sys2Proof.Machine

open Sys2Proof

theorem issueWord_outside {w : BusWord} {s : State} (h : ¬ (s.busy = true ∧ (s.life = .init ∨ s.life = .ready))) :
    issueWord w s = .refused .noRequestRunning :=
  if_neg fun hr => h (requestRunning_iff.mp hr)

/-! The byte of each format is the format's fields side by side (30_encoding.md R72; 40_encoders.md R100 to R103). -/

theorem busWord_encEntry (m : MoveDirection) (d : OnOff) :
    busWord false (encEntry (emrOf m d)) = 0b0000001#7 ++ m.bit ++ d.bit := by
  cases m <;> cases d <;> rfl

theorem busWord_encDispctl (d c b : OnOff) :
    busWord false (encDispctl (dmrOf d c b)) = 0b000001#6 ++ d.bit ++ c.bit ++ b.bit := by
  cases d <;> cases c <;> cases b <;> rfl

theorem busWord_encShift (t : ShiftTarget) (r : ShiftDirection) :
    busWord false (encShift t r) = 0b00001#5 ++ t.bit ++ r.bit ++ 0b00#2 := by
  cases t <;> cases r <;> rfl

theorem busWord_encSetddram (a : Addr7) : busWord false (encSetddram (a.setWidth 8)) = 0b01#2 ++ a := by
  revert a; decide

end Sys2Proof.Machine

namespace Sys2Proof

open Machine

/-- Settles O15: each bus word is handed to the transport, which adds its list to a running request and refuses otherwise. -/
theorem busWordsJoinTheRequest : Obligations.BusWordsJoinTheRequest := by
  refine ⟨fun i s hk h => ?_, fun s m d c b t r a x hb hl => ?_⟩
  · obtain ⟨w, -, hi⟩ := exec_busWord_eq hk
    rw [hi]
    exact issueWord_outside h
  · intro joined
    have join (w : BusWord) : issueWord w s = .next (joined w) := issueWord_of_running hb hl
    rw [← busWord_encEntry, ← busWord_encDispctl, ← busWord_encShift, ← busWord_encSetddram]
    exact ⟨join _, join _, join _, join _, join _, join _, join _⟩

end Sys2Proof

/-! ### How a fallible action ends (41_transport.md R111, R112, R125) -/

namespace Sys2Proof.Machine

open Sys2Proof

section Outcomes

variable {s : State} {a : Action}

/-- An action that is answered Err ends the request (60_exceptions.md R214). -/
theorem step_of_answerErr {took : Bool} (hr : Running s) (ha : s.acts[s.pc]? = some a) (herr : answerFor s a = .err took) :
    step s = .next (errorEntry (afterAnswer s a) a took) := by
  simp [step_of_running hr, runAction, runOne, ha, herr]

/-- An action that never returns leaves the block stuck (60_exceptions.md R213). -/
theorem step_of_answerHang (hr : Running s) (ha : s.acts[s.pc]? = some a) (hhang : answerFor s a = .hang) :
    step s = .next (hang (afterAnswer s a) a) := by
  simp [step_of_running hr, runAction, runOne, ha, hhang]

/-- A fallible action gets the environment's draw, whatever it is but Ok (R125; log 11). -/
theorem answerFor_of_not_ok (hf : fallible a = true) (hne : nextAnswer s ≠ .ok) : answerFor s a = nextAnswer s := by
  cases a
  case i2cTx => simp [answerFor, hf, possibleAnswer, hne]
  all_goals simp [answerFor, hf, possibleAnswer]

/-- The draw Err: the request ends, and the target holds the old or the new value (R111, R112). -/
theorem step_of_drawnErr {took : Bool} (hr : Running s) (ha : s.acts[s.pc]? = some a) (hf : fallible a = true)
    (hn : nextAnswer s = .err took) : step s = .next (errorEntry (drawn s) a took) := by
  have herr : answerFor s a = .err took := (answerFor_of_not_ok hf (by simp [hn])).trans hn
  simpa [afterAnswer, hf] using step_of_answerErr hr ha herr

/-- The draw of a primitive that never returns (60_exceptions.md R213). -/
theorem step_of_drawnHang (hr : Running s) (ha : s.acts[s.pc]? = some a) (hf : fallible a = true)
    (hn : nextAnswer s = .hang) : step s = .next (hang (drawn s) a) := by
  have hhang : answerFor s a = .hang := (answerFor_of_not_ok hf (by simp [hn])).trans hn
  simpa [afterAnswer, hf] using step_of_answerHang hr ha hhang

/-- A drawn Ok is the answer of a transaction whose address is acknowledged (R125). -/
theorem answerFor_i2cTx_of_ok {x : Addr7} {v : Byte} (hn : nextAnswer s = .ok) :
    answerFor s (.i2cTx x v) = if acknowledges s.params x then .ok else .err false := by
  cases hack : acknowledges s.params x <;> simp [answerFor, fallible, possibleAnswer, hn, hack]

end Outcomes

theorem acknowledges_of_ne {p : Params} {e x : Addr7} (he : p.expAddr = .val e) (hne : e ≠ x) : acknowledges p x = false := by
  simp [acknowledges, he, hne]

/-- A pin reads its new level after a drive, and every other pin the level it had (R111). -/
theorem Pins.get_set (ps : Pins) (p q : Pin) (l : Level) : (ps.set p l).get q = if q = p then l else ps.get q := by
  split
  case isTrue h => rw [h, Pins.get_set_same]
  case isFalse h => exact Pins.get_set_of_ne ps p q l (Ne.symm h)

end Sys2Proof.Machine

namespace Sys2Proof

open Machine

/-- Settles O23: one lemma per draw. -/
theorem driveOutcomes : Obligations.DriveOutcomes := by
  intro s p l hr ha
  refine ⟨fun hn => step_of_answerOk hr ha hn, fun took hn => ?_, fun hn => step_of_drawnHang hr ha rfl hn,
    fun q => Pins.get_set s.pins p q l.level⟩
  exact ⟨_, step_of_drawnErr hr ha rfl hn, by cases took <;> simp⟩

/-- Settles O24: one lemma per draw; an address the expander does not have turns a drawn Ok into an Err without effect. -/
theorem i2cTxOutcomes : Obligations.I2cTxOutcomes := by
  intro s a v hr ha
  refine ⟨fun hn hack => ?_, fun took hn => ?_, fun hn => step_of_drawnHang hr ha rfl hn, fun e he hne hn => ?_⟩
  · have hok : answerFor s (.i2cTx a v) = .ok := by rw [answerFor_i2cTx_of_ok hn, hack]; rfl
    exact step_of_answerOk hr ha hok
  · exact ⟨_, step_of_drawnErr hr ha rfl hn, by cases took <;> simp⟩
  · have herr : answerFor s (.i2cTx a v) = .err false := by
      rw [answerFor_i2cTx_of_ok hn, acknowledges_of_ne he hne]
      rfl
    exact ⟨_, step_of_answerErr hr ha herr, by simp⟩

end Sys2Proof

/-! ### After a write that succeeds (41_transport.md R129) -/

namespace Sys2Proof.Machine

open Sys2Proof

/-- After actions that all completed, the pins are those their events tell. -/
theorem completeAll_pins (s : State) (as : List Action) : (completeAll s as).pins = pinsThrough s.pins (as.map okEvent) := by
  induction as generalizing s with
  | nil => rfl
  | cons a as ih =>
    have ha : (completeAction (afterAnswer s a) a).pins = pinsAfter s.pins (okEvent a) := by
      simpa [tookEffect, okEvent] using pins_eq_pinsAfter (afterAnswer s a) a .ok
    rw [completeAll, ih, ha]
    rfl

/-- And so is `OUT`. -/
theorem completeAll_out (s : State) (as : List Action) : (completeAll s as).out = outThrough s.out (as.map okEvent) := by
  induction as generalizing s with
  | nil => rfl
  | cons a as ih =>
    have ha : (completeAction (afterAnswer s a) a).out = outAfter s.out (okEvent a) := by
      simpa [tookEffect, okEvent] using out_eq_outAfter (afterAnswer s a) a .ok
    rw [completeAll, ih, ha]
    rfl

theorem pinsThrough_append (ps : Pins) (es fs : List Event) :
    pinsThrough ps (es ++ fs) = pinsThrough (pinsThrough ps es) fs := List.foldl_append

theorem outThrough_append (o : XVal Byte) (es fs : List Event) :
    outThrough o (es ++ fs) = outThrough (outThrough o es) fs := List.foldl_append

section Levels

variable (ps : Pins) (o : XVal Byte) (b : Byte) (d : Bool)

theorem outThrough_p8Write : outThrough o ((p8Write b d).map okEvent) = o := by cases d <;> rfl

theorem outThrough_p4Write : outThrough o ((p4Write b d).map okEvent) = o := by cases d <;> rfl

/-- After a P8 write EN and RS are low and the data lines hold the byte (R129). -/
theorem linesOf_after_p8Write (p : Params) :
    linesOf p .p8 (pinsThrough ps ((p8Write b d).map okEvent)) o =
      ⟨.L, .L, [7, 6, 5, 4, 3, 2, 1, 0].map fun k => bitLevel (b.getLsbD k)⟩ := by
  cases d <;> simp [p8Write, pulse, dropRs, pinsThrough, pinsAfter, okEvent, tookEffect, Pins.set, linesOf]

/-- After a P4 write EN and RS are low and the data lines hold the lower nibble (R129). -/
theorem linesOf_after_p4Write (p : Params) :
    linesOf p .p4 (pinsThrough ps ((p4Write b d).map okEvent)) o =
      ⟨.L, .L, [3, 2, 1, 0].map fun k => bitLevel (b.getLsbD k)⟩ := by
  cases d <;>
    simp [p4Write, nib4, lowerNibble, pulse, dropRs, pinsThrough, pinsAfter, okEvent, tookEffect, Pins.set, linesOf]

theorem pinsThrough_i2cWrite (p : Params) (a : Addr7) : pinsThrough ps ((i2cWrite p a b d).map okEvent) = ps := by
  rw [i2cWrite, List.map_append, List.map_append, pinsThrough_append, pinsThrough_append, pinsThrough_i2cNib,
    pinsThrough_i2cNib]
  split <;> rfl

/-- After an I2C write `OUT` holds the last payload: the lower nibble's, or the trailer (R123, R129). -/
theorem outThrough_i2cWrite (p : Params) (a : Addr7) :
    outThrough o ((i2cWrite p a b d).map okEvent) = .val (payload p (lowerNibble b) (d && !p.rsTrailer) false) := by
  rw [i2cWrite, List.map_append, List.map_append, outThrough_append, outThrough_append, outThrough_i2cNib]
  cases d <;> cases p.rsTrailer <;> rfl

end Levels

theorem readTsel_of_val {s : State} {t : Transport} (h : s.tsel = .val t) : readTsel s = t := by
  simp [readTsel, h]

end Sys2Proof.Machine

namespace Sys2Proof

open Machine

/-- Settles O43: the list completes, and the pins and `OUT` after it are those its events tell. -/
theorem afterASuccessfulWrite : Obligations.AfterASuccessfulWrite := by
  intro s b d hr hpc hacts hok
  have hrun := steps_of_allOk (rest := []) hr (by simp [hpc]) hok
  obtain ⟨-, hbusy, -⟩ := hr
  refine ⟨_, hrun, by simpa using hbusy, by simp [hpc], fun ht => ?_, fun ht => ?_, fun ht => ?_⟩ <;>
    simp only [completeAll_pins, completeAll_out, hacts, wordActions, readTsel_of_val ht, busWrite, busByte_busWord,
      isData_busWord]
  · obtain ⟨hrs, hen, hdata⟩ := Lines.mk.inj (linesOf_after_p8Write s.pins s.out b d s.params)
    exact ⟨hen, hrs, outThrough_p8Write s.out b d, hdata⟩
  · obtain ⟨hrs, hen, hdata⟩ := Lines.mk.inj (linesOf_after_p4Write s.pins s.out b d s.params)
    exact ⟨hen, hrs, outThrough_p4Write s.out b d, hdata⟩
  · exact ⟨pinsThrough_i2cWrite s.pins b d _ _, outThrough_i2cWrite s.out b d _ _⟩

end Sys2Proof

/-! ### The first action of a write, and the end of its pulses (41_transport.md R118, R124, R131) -/

namespace Sys2Proof.Machine

open Sys2Proof

/-- An action that does not raise EN, whether or not it takes effect: it drives another pin, or sends a byte with EN at 0. -/
structure DoesNotRaiseEn (p : Params) (a : Action) : Prop where
  drive : ∀ l, a ≠ .drive .en l
  send : ∀ x v, a = .i2cTx x v → enLow p v = true

/-- Under ThreeByte a bus write begins with a fallible action that does not raise EN (R116, R119, R122, R124). -/
theorem busWrite_first {p : Params} (hn : p.nibbleSeq = .threeByte) (hm : p.expMap.wf = true) (t : Transport) (x : Addr7)
    (w : BusWord) : ∃ a, (busWrite p t x w).head? = some a ∧ fallible a = true ∧ DoesNotRaiseEn p a := by
  cases t
  case p8 | p4 => exact ⟨_, rfl, rfl, by simp, by simp⟩
  case i2c =>
    refine ⟨.i2cTx x (payload p (upperNibble (busByte w)) (isData w) false), ?_, rfl, by simp, ?_⟩
    · simp [busWrite, i2cWrite, i2cNib, hn]
    · rintro _ _ ⟨⟩
      exact enLow_payload hm _ _

/-- Only a drive of EN changes the pin EN (R111). -/
theorem applyAction_en_of_ne (s : State) {a : Action} (ha : ∀ l, a ≠ .drive .en l) : (applyAction s a).pins.en = s.pins.en := by
  have hpins : (applyAction s a).pins = pinsAfter s.pins (okEvent a) := pins_eq_pinsAfter s a .ok
  rw [hpins, pinsAfter_en_of_ne ha]

/-- The effect of an action on `OUT`: none, or the byte it sends (R112). -/
theorem applyAction_out_cases (s : State) (a : Action) :
    (applyAction s a).out = s.out ∨ ∃ x v, a = .i2cTx x v ∧ (applyAction s a).out = .val v := by
  cases a
  case i2cTx x v => exact .inr ⟨x, v, rfl, rfl⟩
  all_goals exact .inl rfl

/-- An action that does not raise EN leaves it as it was, or low, also when it fails (60_exceptions.md R218). -/
theorem DoesNotRaiseEn.after_error {s : State} {a : Action} (h : DoesNotRaiseEn s.params a) (took : Bool) :
    (errorEntry s a took).pins.en = s.pins.en ∧
      ((errorEntry s a took).out = s.out ∨ ∃ v, (errorEntry s a took).out = .val v ∧ enLow s.params v = true) := by
  rw [errorEntry_pins, errorEntry_out]
  cases took
  case false => exact ⟨rfl, .inl rfl⟩
  case true =>
    refine ⟨applyAction_en_of_ne s h.drive, ?_⟩
    obtain ho | ⟨x, v, ha, ho⟩ := applyAction_out_cases s a
    · exact .inl ho
    · exact .inr ⟨v, ho, h.send x v ha⟩

/-- In a list that has no `u` from some `x` on, every `u` is followed by that `x`. -/
theorem mem_of_append_cons_eq {α : Type} {as bs pre post : List α} {x u : α} (h : as ++ x :: bs = pre ++ u :: post)
    (hu : u ∉ x :: bs) : x ∈ post := by
  obtain ⟨c, -, hc⟩ | ⟨c, -, hc⟩ := List.append_eq_append_iff.mp h
  · exact absurd (hc ▸ List.mem_append_right c List.mem_cons_self) hu
  · cases c with
    | nil =>
      cases hc
      exact absurd List.mem_cons_self hu
    | cons y c =>
      cases hc
      exact List.mem_append_right c List.mem_cons_self

/-- Where a list ends with an enable pulse and actions that do not raise EN, every rise of EN is followed by a fall (R115). -/
theorem en_falls_after_rise {as rest pre post : List Action} (hrest : Action.drive .en .H ∉ rest)
    (h : as ++ pulse ++ rest = pre ++ .drive .en .H :: post) : Action.drive .en .L ∈ post := by
  have hsplit : as ++ pulse ++ rest =
      (as ++ [.drive .en .H, .wait .enPw]) ++ .drive .en .L :: .wait .post :: rest := by simp [pulse]
  exact mem_of_append_cons_eq (hsplit.symm.trans h) (by simpa using hrest)

/-- A nibble on I2C ends with the payload that lets EN fall (R122). -/
theorem i2cNib_eq_append_fall (p : Params) (a : Addr7) (n : Nibble) (d : Bool) :
    ∃ as, i2cNib p a n d = as ++ [.i2cTx a (payload p n d false), .wait .post] := by
  unfold i2cNib
  split
  · exact ⟨[_, _, _], rfl⟩
  · exact ⟨[_, _], rfl⟩

/-- On I2C the last fall of EN is followed by bytes with EN low only, so it follows every rise (R123). -/
theorem enLow_sent_after_rise {p : Params} (hm : p.expMap.wf = true) {a x : Addr7} {b v : Byte} {d : Bool}
    {pre post : List Action} (h : i2cWrite p a b d = pre ++ .i2cTx x v :: post) (hv : enLow p v = false) :
    ∃ y u, Action.i2cTx y u ∈ post ∧ enLow p u = true := by
  have hlow (n : Nibble) (rs : Bool) : v ≠ payload p n rs false := by
    rintro rfl
    simp [enLow_payload hm] at hv
  obtain ⟨as, has⟩ := i2cNib_eq_append_fall p a (lowerNibble b) d
  rw [i2cWrite, has, ← List.append_assoc, List.append_assoc] at h
  refine ⟨a, payload p (lowerNibble b) d false, mem_of_append_cons_eq h ?_, enLow_payload hm _ _⟩
  cases d <;> cases p.rsTrailer <;> simp [hlow]

/-- What a P4 write runs between the two drives of RS: both nibbles, each with its pulse (R118, R119). -/
def p4Pulses (b : Byte) : List Action := nib4 (upperNibble b) ++ pulse ++ nib4 (lowerNibble b) ++ pulse

theorem p4Write_eq_rs_around_pulses (b : Byte) (d : Bool) :
    p4Write b d = .drive .rs (if d then .H else .L) :: p4Pulses b ++ (if d then [.drive .rs .L] else []) := rfl

theorem rs_notMem_p4Pulses (b : Byte) (l : Drv) : Action.drive .rs l ∉ p4Pulses b := by
  simp [p4Pulses, nib4, pulse]

/-- A pulse drives EN once to each level (R115). -/
theorem count_en_pulse (l : Drv) : pulse.count (.drive .en l) = 1 := by cases l <;> decide

theorem count_en_p4Pulses (b : Byte) (l : Drv) : (p4Pulses b).count (.drive .en l) = 2 := by
  simp [p4Pulses, count_en_pulse, List.count_eq_zero_of_not_mem (en_notMem_nib4 _ l)]

end Sys2Proof.Machine

namespace Sys2Proof

open Machine

/-- Settles O46: the first action of the list does not raise EN, and its failure is the error entry. -/
theorem firstOperationNeverRaisesEn : Obligations.FirstOperationNeverRaisesEn := by
  intro s w took hr hpc hn hm hacts hans
  obtain ⟨a, ha, hf, hquiet⟩ := busWrite_first hn hm (readTsel s) (readAddr s) w
  have hhead : s.acts.head? = some a := (congrArg List.head? hacts).trans ha
  have hat : s.acts[s.pc]? = some a := by rw [hpc, ← List.head?_eq_getElem?, hhead]
  obtain ⟨hen, hout⟩ := DoesNotRaiseEn.after_error (s := drawn s) hquiet took
  exact ⟨a, _, hhead, hf, hquiet.drive, hquiet.send, step_of_drawnErr hr hat hf hans, errorEntry_resp _ a took,
    errorEntry_trace _ a took, hen, hout⟩

/-- Settles O48: on the pins the last pulse, and on I2C the last payload of the lower nibble, comes after every rise of EN. -/
theorem everyPulseIsEnded : Obligations.EveryPulseIsEnded := by
  intro p t a w hm
  refine ⟨fun pre post h => ?_, fun pre post x v h hv => ?_⟩
  · have howned := busWrite_owned p t a w (.drive .en .H) (by simp [h])
    cases t
    case p8 | p4 => exact en_falls_after_rise (en_notMem_dropRs _ _) h
    case i2c => simp [ownedAction, ownedPins] at howned
  · have howned := busWrite_owned p t a w (.i2cTx x v) (by simp [h])
    cases t
    case p8 | p4 => simp [ownedAction] at howned
    case i2c => exact enLow_sent_after_rise hm h hv

/-- Settles O47: between the two drives of RS stand the nibbles and the pulses, which do not drive it. -/
theorem rsConstantAcrossBothPulses : Obligations.RsConstantAcrossBothPulses :=
  fun b d => ⟨p4Pulses b, p4Write_eq_rs_around_pulses b d, rs_notMem_p4Pulses b, count_en_p4Pulses b .H,
    count_en_p4Pulses b .L⟩

end Sys2Proof

/-! ## The host operations (42_controller_ops.md) -/

/-! ### What an accepted operation loads (42_controller_ops.md R150 to R163) -/

namespace Sys2Proof.Machine

open Sys2Proof

/-- `Cmd(b, t)` is the bus word's actions and one wait (R151). -/
theorem expand_cmd (s : State) (b : Byte) (t : Duration) :
    expand s (cmd b t) = wordActions s (busWord false b) ++ [.wait t] := rfl

/-- `Dat(b)` is the data word's actions and one wait (R151). -/
theorem expand_dat (s : State) (b : Byte) : expand s (dat b) = wordActions s (busWord true b) ++ [.wait .cmd] := rfl

/-- A setter of DMR is the shadow write before a command (R169). -/
theorem expand_storeDmr (s : State) (v : BitVec 3) :
    expand s (storeDmr v) = .setDmr v :: expand s (cmd (encDispctl v) .cmd) := rfl

/-- A setter of EMR is the shadow write before a command (R169). -/
theorem expand_storeEmr (s : State) (v : BitVec 2) :
    expand s (storeEmr v) = .setEmr v :: expand s (cmd (encEntry v) .cmd) := rfl

/-! The bus words as the formats of 30_encoding.md R72 and R73 spell them. -/

theorem busWord_true (b : Byte) : busWord true b = 1#1 ++ b := rfl

theorem busWord_encEntry_eq_append (v : BitVec 2) : busWord false (encEntry v) = 0b0000001#7 ++ v := by
  revert v; decide

theorem busWord_encDispctl_eq_append (v : BitVec 3) : busWord false (encDispctl v) = 0b000001#6 ++ v := by
  revert v; decide

theorem busWord_encSetddram_eq_append (p : Byte) : busWord false (encSetddram p) = 0b01#2 ++ p.extractLsb' 0 7 := by
  revert p; decide

/-! The fields a setter leaves as they are, as bits of the register (10_state.md R28, R31). -/

theorem bit_emrMd (m : BitVec 2) : (emrMd m).bit = m.extractLsb' 1 1 := by revert m; decide
theorem bit_emrDs (m : BitVec 2) : (emrDs m).bit = m.extractLsb' 0 1 := by revert m; decide
theorem bit_dmrDisp (m : BitVec 3) : (dmrDisp m).bit = m.extractLsb' 2 1 := by revert m; decide
theorem bit_dmrCur (m : BitVec 3) : (dmrCur m).bit = m.extractLsb' 1 1 := by revert m; decide
theorem bit_dmrBlink (m : BitVec 3) : (dmrBlink m).bit = m.extractLsb' 0 1 := by revert m; decide

theorem readEmr_of_val {s : State} {m : BitVec 2} (h : s.emr = .val m) : readEmr s = m := by
  simp [readEmr, h]

section Accepted

variable {s : State}

theorem acceptOp_cmd (hl : s.life = .ready) (hb : s.busy = false) (b : Byte) (t : Duration) :
    acceptOp (cmd b t) s = .next (startRequest s (wordActions s (busWord false b) ++ [.wait t])) :=
  acceptOp_of_ready hl hb

theorem acceptOp_dat (hl : s.life = .ready) (hb : s.busy = false) (b : Byte) :
    acceptOp (dat b) s = .next (startRequest s (wordActions s (1#1 ++ b) ++ [.wait .cmd])) :=
  acceptOp_of_ready hl hb

theorem acceptOp_storeDmr (hl : s.life = .ready) (hb : s.busy = false) (v : BitVec 3) :
    acceptOp (storeDmr v) s =
      .next (startRequest s (.setDmr v :: wordActions s (0b000001#6 ++ v) ++ [.wait .cmd])) := by
  rw [acceptOp_of_ready hl hb, expand_storeDmr, expand_cmd, busWord_encDispctl_eq_append, List.cons_append]

theorem acceptOp_storeEmr (hl : s.life = .ready) (hb : s.busy = false) (v : BitVec 2) :
    acceptOp (storeEmr v) s =
      .next (startRequest s (.setEmr v :: wordActions s (0b0000001#7 ++ v) ++ [.wait .cmd])) := by
  rw [acceptOp_of_ready hl hb, expand_storeEmr, expand_cmd, busWord_encEntry_eq_append, List.cons_append]

/-- A byte sequence issues its first byte and owes the rest (R165). -/
theorem issueBytes_cons (hl : s.life = .ready) (hb : s.busy = false) (b : Byte) (rest : List Byte) :
    issueBytes (b :: rest) s =
      .next (startRequest { s with pending := rest } (wordActions s (1#1 ++ b) ++ [.wait .cmd])) :=
  acceptOp_dat (s := { s with pending := rest }) hl hb b

end Accepted

end Sys2Proof.Machine

namespace Sys2Proof

open Machine

/-- Settles O8: each is a command of one fixed byte. -/
theorem fixedCommandsAccepted : Obligations.FixedCommandsAccepted :=
  fun _ hl hb => ⟨acceptOp_cmd hl hb CLEAR .clear, acceptOp_cmd hl hb HOME .home⟩

/-- Settles O9: each setter is a store of DMR, with the fields it does not name read back from it. -/
theorem displayModeSettersAccepted : Obligations.DisplayModeSettersAccepted := by
  intro s m d c b v hl hb hm accepted
  have store (n : BitVec 3) : acceptOp (storeDmr n) s = .next (accepted n) := acceptOp_storeDmr hl hb n
  rw [← bit_dmrDisp, ← bit_dmrCur, ← bit_dmrBlink, ← readDmr_of_val hm]
  exact ⟨store _, store _, store _, store _⟩

/-- Settles O10: each setter is a store of EMR, with the field it does not name read back from it. -/
theorem entryModeSettersAccepted : Obligations.EntryModeSettersAccepted := by
  intro s m v d hl hb hm accepted
  have store (n : BitVec 2) : acceptOp (storeEmr n) s = .next (accepted n) := acceptOp_storeEmr hl hb n
  rw [← bit_emrMd, ← bit_emrDs, ← readEmr_of_val hm]
  exact ⟨store _, store _⟩

/-- Settles O11: each is a command, whose byte is the format of R72 with its fields filled in. -/
theorem positionAndShiftsAccepted : Obligations.PositionAndShiftsAccepted := by
  intro s p d hl hb accepted
  have command (x : Byte) : acceptOp (cmd x .cmd) s = .next (accepted (busWord false x)) := acceptOp_cmd hl hb x .cmd
  have hcursor : busWord false (encShift .cursor d) = 0b000010#6 ++ d.bit ++ 0b00#2 := busWord_encShift .cursor d
  have hdisplay : busWord false (encShift .display d) = 0b000011#6 ++ d.bit ++ 0b00#2 := busWord_encShift .display d
  rw [← busWord_encSetddram_eq_append, ← hcursor, ← hdisplay]
  exact ⟨command _, command _, command _⟩

/-- Settles O12: both send one data word. -/
theorem dataWritesAccepted : Obligations.DataWritesAccepted :=
  fun _ b c hl hb => ⟨acceptOp_dat hl hb b, acceptOp_dat hl hb (lowByte c)⟩

/-- Settles O13: both forms are `issueBytes`, by whether there is a first byte. -/
theorem byteSequencesIssued : Obligations.ByteSequencesIssued := by
  refine ⟨fun s b rest hl hb => issueBytes_cons hl hb b rest, fun _ => rfl, fun _ _ => rfl, fun s str b rest hl hb h => ?_,
    fun _ => rfl, rfl, rfl, rfl⟩
  have hissue : exec (.writeStr str) s = issueBytes (b :: rest) s := congrArg (issueBytes · s) h
  exact hissue.trans (issueBytes_cons hl hb b rest)

end Sys2Proof

/-! ### Where an operation is refused (42_controller_ops.md R150) -/

namespace Sys2Proof.Machine

open Sys2Proof

section Refused

variable {ms : List Micro} {s : State}

theorem acceptOp_noInstance (h : s.life = .unbuilt ∨ s.life = .absent) : acceptOp ms s = .refused .noInstance := by
  rcases h with h | h <;> simp [acceptOp, h]

theorem acceptOp_inProgress (h : s.life = .init ∨ (s.life = .ready ∧ s.busy = true)) :
    acceptOp ms s = .refused .requestInProgress := by
  obtain h | ⟨hl, hb⟩ := h
  · simp [acceptOp, h]
  · simp [acceptOp, hl, hb]

end Refused

theorem utf8Char_ne_nil (c : Scalar) : utf8Char c ≠ [] := by
  unfold utf8Char
  split_ifs <;> exact List.cons_ne_nil _ _

/-- Only the empty string has no byte to send (R166). -/
theorem utf8_eq_nil_iff {str : List Scalar} : utf8 str = [] ↔ str = [] := by
  cases str <;> simp [utf8, utf8Char_ne_nil]

/-- A byte sequence that is not empty goes through the acceptance of its first byte (R165). -/
theorem issueBytes_eq_acceptOp {seq : List Byte} (h : seq ≠ []) (s : State) :
    ∃ ms rest, issueBytes seq s = acceptOp ms { s with pending := rest } := by
  cases seq with
  | nil => exact absurd rfl h
  | cons b rest => exact ⟨dat b, rest, rfl⟩

/-- An operation, or a pseudo-instruction that has a byte to send, goes through the acceptance of an operation; only the bytes
owed are set before it (R150, R165). -/
theorem exec_eq_acceptOp {i : Instr}
    (hi : i.kind = .operation ∨ i.kind = .pseudo ∧ i ≠ .writeBytes [] ∧ i ≠ .writeStr []) (s : State) : ∃ ms rest, exec i s = acceptOp ms { s with pending := rest } := by
  obtain hk | ⟨hk, hbytes, hstr⟩ := hi
  · obtain ⟨ms, -, -, -, h⟩ := exec_operation_eq hk s
    exact ⟨ms, s.pending, h⟩
  · cases i <;> simp only [Instr.kind, reduceCtorEq] at hk
    case writeChar c => exact ⟨dat (lowByte c), s.pending, rfl⟩
    case writeBytes seq => exact issueBytes_eq_acceptOp (fun h => hbytes (h ▸ rfl)) s
    case writeStr str => exact issueBytes_eq_acceptOp (fun h => hstr (utf8_eq_nil_iff.mp h ▸ rfl)) s

end Sys2Proof.Machine

namespace Sys2Proof

open Machine

/-- Settles O17: each goes through the acceptance of an operation, which looks at `LIFE` and `BUSY` alone. -/
theorem operationsRefusedOutsideReady : Obligations.OperationsRefusedOutsideReady := by
  intro i s hi
  obtain ⟨ms, rest, h⟩ := exec_eq_acceptOp hi s
  rw [h]
  exact ⟨fun hl => acceptOp_noInstance hl, fun hl => acceptOp_inProgress hl⟩

end Sys2Proof

/-! ### The UTF-8 bytes of a string (42_controller_ops.md R166; log 9) -/

namespace Sys2Proof.Machine

open Sys2Proof

/-- A marker before a field of a scalar value, as a number. -/
theorem toNat_marker_append {i n : Nat} (m : BitVec i) (x : BitVec n) (k j : Nat) :
    (m ++ x.extractLsb' k j).toNat = x.toNat / 2 ^ k % 2 ^ j + m.toNat * 2 ^ j := by
  have hlt : x.toNat / 2 ^ k % 2 ^ j < 2 ^ j := Nat.mod_lt _ (Nat.two_pow_pos j)
  rw [BitVec.toNat_append, BitVec.extractLsb'_toNat, Nat.shiftRight_eq_div_pow, ← Nat.shiftLeft_add_eq_or_of_lt hlt,
    Nat.shiftLeft_eq, Nat.add_comm]

/-- A byte of Lean's encoder, which is given by its number. -/
theorem eq_toBitVec_ofNat {b : Byte} {n : Nat} (h : b.toNat = n) : b = (UInt8.ofNat n).toBitVec :=
  BitVec.eq_of_toNat_eq (by simp [← h])

section Utf8

variable (x : Scalar)

theorem utf8_single : x.extractLsb' 0 8 = (UInt8.ofNat x.toNat).toBitVec := BitVec.eq_of_toNat_eq (by simp)

theorem utf8_lead2 : 0b110#3 ++ x.extractLsb' 6 5 = (UInt8.ofNat (x.toNat / 64 % 32 + 192)).toBitVec :=
  eq_toBitVec_ofNat (toNat_marker_append 0b110#3 x 6 5)

theorem utf8_lead3 : 0b1110#4 ++ x.extractLsb' 12 4 = (UInt8.ofNat (x.toNat / 4096 % 16 + 224)).toBitVec :=
  eq_toBitVec_ofNat (toNat_marker_append 0b1110#4 x 12 4)

theorem utf8_lead4 : 0b11110#5 ++ x.extractLsb' 18 3 = (UInt8.ofNat (x.toNat / 262144 % 8 + 240)).toBitVec :=
  eq_toBitVec_ofNat (toNat_marker_append 0b11110#5 x 18 3)

theorem utf8_next (k : Nat) : 0b10#2 ++ x.extractLsb' k 6 = (UInt8.ofNat (x.toNat / 2 ^ k % 64 + 128)).toBitVec :=
  eq_toBitVec_ofNat (toNat_marker_append 0b10#2 x k 6)

end Utf8

theorem toNat_ofNat_char (c : Char) : (BitVec.ofNat 21 c.toNat).toNat = c.toNat := by
  have hvalid : c.toNat.isValidChar := c.valid
  rw [BitVec.toNat_ofNat]
  omega

/-- The model's bytes of a scalar value are those of Lean's encoder: both split at the same bounds, and each byte is one of the
forms above. -/
theorem utf8Char_ofNat (c : Char) : utf8Char (BitVec.ofNat 21 c.toNat) = (String.utf8EncodeChar c).map UInt8.toBitVec := by
  have hv : (BitVec.ofNat 21 c.toNat).toNat = c.val.toNat := toNat_ofNat_char c
  simp only [utf8Char, String.utf8EncodeChar, utf8_single, utf8_lead2, utf8_lead3, utf8_lead4, utf8_next, hv, ← Nat.lt_succ_iff]
  split_ifs <;> simp

/-- A scalar value is the number of a character (R164). -/
theorem isScalar_iff (x : Scalar) : isScalar x = true ↔ ∃ c : Char, BitVec.ofNat 21 c.toNat = x := by
  have hvalid : isScalar x = true ↔ x.toNat.isValidChar := by
    simp only [isScalar, Bool.or_eq_true, Bool.and_eq_true, decide_eq_true_eq]
    omega
  rw [hvalid]
  constructor
  · intro h
    exact ⟨Char.ofNat x.toNat, by simp [Char.toNat_ofNat, h]⟩
  · rintro ⟨c, rfl⟩
    rw [toNat_ofNat_char]
    exact c.valid

end Sys2Proof.Machine

namespace Sys2Proof

open Machine

/-- Settles O55: byte by byte for one character, and character by character for a string. -/
theorem stringsAreUtf8 : Obligations.StringsAreUtf8 := by
  refine ⟨utf8Char_ofNat, fun s => ?_, isScalar_iff⟩
  simp only [utf8, List.flatMap_map, utf8Char_ofNat]

end Sys2Proof

/-! ### A setter stores before it sends (42_controller_ops.md R169) -/

namespace Sys2Proof.Machine

open Sys2Proof

/-- An OK leaves the bytes still owed (42_controller_ops.md R165). -/
theorem finish_ok_pending (s : State) : (finish s .ok).pending = s.pending := by
  unfold finish hostReceive
  dsimp only
  split <;> rfl

/-- An action that writes neither shadow register. -/
def NoShadowWrite (a : Action) : Prop := (∀ v, a ≠ .setEmr v) ∧ ∀ v, a ≠ .setDmr v

theorem noShadowWrite_busWrite (p : Params) (t : Transport) (x : Addr7) (w : BusWord) :
    ∀ a ∈ busWrite p t x w, NoShadowWrite a := by
  cases t
  case p8 => cases hd : isData w <;> simp [busWrite, p8Write, pulse, dropRs, hd, NoShadowWrite]
  case p4 => cases hd : isData w <;> simp [busWrite, p4Write, nib4, pulse, dropRs, hd, NoShadowWrite]
  case i2c =>
    cases hd : isData w <;> cases hn : p.nibbleSeq <;> cases hr : p.rsTrailer <;>
      simp [busWrite, i2cWrite, i2cNib, hd, hn, hr, NoShadowWrite]

/-- A bus word and a wait write no shadow register. -/
theorem noShadowWrite_word_wait (s : State) (w : BusWord) (d : Duration) :
    ∀ a ∈ wordActions s w ++ [.wait d], NoShadowWrite a :=
  List.forall_mem_append.mpr ⟨noShadowWrite_busWrite _ _ _ w, by simp [NoShadowWrite]⟩

theorem applyAction_shadow_of_noShadowWrite (s : State) {a : Action} (h : NoShadowWrite a) :
    (applyAction s a).emr = s.emr ∧ (applyAction s a).dmr = s.dmr := by
  obtain ⟨hemr, hdmr⟩ := h
  exact ⟨(applyAction_emr_cases s a).resolve_right fun ⟨v, hv⟩ => hemr v hv,
    (applyAction_dmr_cases s a).resolve_right fun ⟨v, hv⟩ => hdmr v hv⟩

/-- The shadow registers hold these values, and nothing that is left to run or to issue writes them. -/
structure ShadowsSettled (e : BitVec 2) (g : BitVec 3) (s : State) : Prop where
  emr : s.emr = .val e
  dmr : s.dmr = .val g
  port : s.busPort = []
  last : LastRequest s
  quiet : ∀ a ∈ s.acts.drop s.pc, NoShadowWrite a

section ShadowsSettled

variable {e : BitVec 2} {g : BitVec 3} {s t : State}

theorem ShadowsSettled.runOne (h : ShadowsSettled e g s) {a : Action} (ha : s.acts[s.pc]? = some a) :
    ShadowsSettled e g (runOne s a) := by
  obtain ⟨hemr, hdmr, hport, ⟨hprog, hpend⟩, hquiet⟩ := h
  obtain hrun | ⟨took, hf, hrun⟩ | ⟨-, hrun⟩ := runOne_cases s a <;> rw [hrun]
  · have hq : NoShadowWrite a := hquiet a (List.mem_of_getElem? (by rw [List.getElem?_drop, Nat.add_zero, ha]))
    obtain ⟨he, hd⟩ := applyAction_shadow_of_noShadowWrite (afterAnswer s a) hq
    refine ⟨by simp [he, hemr], by simp [hd, hdmr], by simp [hport], by simp [LastRequest, hprog, hpend], fun b hb => ?_⟩
    refine hquiet b (List.mem_of_mem_drop (i := 1) ?_)
    simpa using hb
  · obtain ⟨he, hd⟩ := errorEntry_shadow_of_fallible (drawn s) took hf
    exact ⟨he.trans hemr, hd.trans hdmr, by simp [hport], by simp [LastRequest, hprog], by simp⟩
  · exact ⟨hemr, hdmr, hport, ⟨hprog, hpend⟩, hquiet⟩

theorem ShadowsSettled.finish (h : ShadowsSettled e g s) : ShadowsSettled e g (finish s .ok) := by
  obtain ⟨hemr, hdmr, hport, ⟨hprog, hpend⟩, -⟩ := h
  exact ⟨by simp [hemr], by simp [hdmr], by simp [hport], by simp [LastRequest, hprog, finish_ok_pending, hpend], by simp⟩

/-- With nothing left to issue, a step is an action of the request, its end, or none. -/
theorem ShadowsSettled.step (h : ShadowsSettled e g s) (hs : step s = .next t) : ShadowsSettled e g t := by
  obtain ⟨hprog, hpend⟩ := h.last
  obtain ⟨-, ⟨-, _, _, _, hw, -⟩ | ⟨-, -, rfl⟩ | ⟨-, _, _, hp, -⟩ | ⟨-, -, _, _, _, hl, -⟩ | ⟨-, -, -, rfl⟩⟩ :=
    step_cases hs
  · simp [h.port] at hw
  · obtain ⟨-, hrun⟩ | ⟨a, ha, hrun⟩ := runAction_cases s <;> rw [hrun]
    · exact h.finish
    · exact h.runOne ha
  · simp [hpend] at hp
  · simp [hprog] at hl
  · exact h

/-- So the shadow registers hold these values for the rest of the run, whatever the environment answers. -/
theorem ShadowsSettled.steps {k : Nat} (h : ShadowsSettled e g s) (hs : steps k s = .next t) : ShadowsSettled e g t := by
  induction k generalizing s with
  | zero => cases hs; exact h
  | succ k ih =>
    cases hstep : Machine.step s <;> simp only [Sys2Proof.steps, hstep, reduceCtorEq] at hs
    exact ih (h.step hstep) hs

end ShadowsSettled

/-- From the first step on the shadow registers hold these values. -/
def HeldFromFirstStep (e : BitVec 2) (g : BitVec 3) (t : State) : Prop :=
  ∀ (k : Nat) (u : State), steps (k + 1) t = .next u → u.emr = .val e ∧ u.dmr = .val g

/-- They are settled after the first step. -/
theorem heldFromFirstStep_of_step {e : BitVec 2} {g : BitVec 3} {t t' : State} (hs : step t = .next t')
    (h : ShadowsSettled e g t') : HeldFromFirstStep e g t := by
  intro k u hu
  simp only [steps, hs] at hu
  exact ⟨(h.steps hu).emr, (h.steps hu).dmr⟩

/-- They are settled from the start: the list writes no shadow register. -/
theorem ShadowsSettled.held {e : BitVec 2} {g : BitVec 3} {t : State} (h : ShadowsSettled e g t) : HeldFromFirstStep e g t :=
  fun _ _ hu => ⟨(h.steps hu).emr, (h.steps hu).dmr⟩

section Requests

variable {s : State} {m : BitVec 2} {n : BitVec 3}

/-- A request that stores nothing: its list writes no shadow register. -/
theorem held_of_word_wait (hw : s.busPort = []) (hlast : LastRequest s) (hm : s.emr = .val m) (hn : s.dmr = .val n)
    (w : BusWord) (d : Duration) :
    (∀ a ∈ wordActions s w ++ [.wait d], NoShadowWrite a) ∧
      HeldFromFirstStep m n (startRequest s (wordActions s w ++ [.wait d])) :=
  ⟨noShadowWrite_word_wait s w d, ShadowsSettled.held ⟨hm, hn, hw, hlast, noShadowWrite_word_wait s w d⟩⟩

/-- A setter of EMR: its first step is the shadow write, which completes, and the rest of its list writes no shadow register. -/
theorem held_of_storeEmr (hh : s.hung = false) (hw : s.busPort = []) (hlast : LastRequest s) (hn : s.dmr = .val n)
    (e : BitVec 2) : HeldFromFirstStep e n (startRequest s (expand s (storeEmr e))) :=
  heldFromFirstStep_of_step (step_of_infallible ⟨hh, rfl, hw⟩ rfl rfl)
    ⟨rfl, hn, hw, hlast, noShadowWrite_word_wait s _ .cmd⟩

/-- A setter of DMR: likewise. -/
theorem held_of_storeDmr (hh : s.hung = false) (hw : s.busPort = []) (hlast : LastRequest s) (hm : s.emr = .val m)
    (g : BitVec 3) : HeldFromFirstStep m g (startRequest s (expand s (storeDmr g))) :=
  heldFromFirstStep_of_step (step_of_infallible ⟨hh, rfl, hw⟩ rfl rfl)
    ⟨hm, rfl, hw, hlast, noShadowWrite_word_wait s _ .cmd⟩

end Requests

/-! A single-field setter leaves the other fields' bits side by side (10_state.md R28, R31). -/

theorem emrOf_emrMd (m : BitVec 2) (v : OnOff) : emrOf (emrMd m) v = m.extractLsb' 1 1 ++ v.bit :=
  congrArg (· ++ v.bit) (bit_emrMd m)

theorem emrOf_emrDs (m : BitVec 2) (d : MoveDirection) : emrOf d (emrDs m) = d.bit ++ m.extractLsb' 0 1 :=
  congrArg (d.bit ++ ·) (bit_emrDs m)

theorem dmrOf_of_display (n : BitVec 3) (v : OnOff) : dmrOf v (dmrCur n) (dmrBlink n) = v.bit ++ n.extractLsb' 0 2 := by
  cases v <;> revert n <;> decide

theorem dmrOf_of_cursor (n : BitVec 3) (v : OnOff) :
    dmrOf (dmrDisp n) v (dmrBlink n) = n.extractLsb' 2 1 ++ v.bit ++ n.extractLsb' 0 1 := by
  rw [dmrOf, bit_dmrDisp, bit_dmrBlink]

theorem dmrOf_of_blink (n : BitVec 3) (v : OnOff) : dmrOf (dmrDisp n) (dmrCur n) v = n.extractLsb' 1 2 ++ v.bit := by
  cases v <;> revert n <;> decide

end Sys2Proof.Machine

namespace Sys2Proof

open Machine

/-- Settles O41: a setter's first step is its shadow write, and what is left to run, or the whole list of any other operation,
writes no shadow register. -/
theorem storeBeforeSend : Obligations.StoreBeforeSend := by
  intro i s t m n hk hh hw hlast hm hn h e g
  have word {b : Byte} {d : Duration} {x : Bool} (h : acceptOp [.word (busWord x b), .wait d] s = .next t) :
      (∀ a ∈ t.acts, NoShadowWrite a) ∧ HeldFromFirstStep m n t := by
    obtain ⟨-, -, rfl⟩ := acceptOp_next h
    exact held_of_word_wait hw hlast hm hn _ d
  have storeE {v v' : BitVec 2} (hv : v = v') (h : acceptOp (storeEmr v) s = .next t) :
      t.acts.head? = some (.setEmr v') ∧ HeldFromFirstStep v' n t := by
    obtain ⟨-, -, rfl⟩ := acceptOp_next h
    exact hv ▸ ⟨rfl, held_of_storeEmr hh hw hlast hn v⟩
  have storeD {v v' : BitVec 3} (hv : v = v') (h : acceptOp (storeDmr v) s = .next t) :
      t.acts.head? = some (.setDmr v') ∧ HeldFromFirstStep m v' t := by
    obtain ⟨-, -, rfl⟩ := acceptOp_next h
    exact hv ▸ ⟨rfl, held_of_storeDmr hh hw hlast hm v⟩
  obtain rfl := readEmr_of_val hm
  obtain rfl := readDmr_of_val hn
  cases i <;> simp only [Instr.kind, reduceCtorEq] at hk
  case setAutoscroll v => exact storeE (emrOf_emrMd _ v) h
  case setCursorMode d => exact storeE (emrOf_emrDs _ d) h
  case setDisplayMode d c b => exact storeD rfl h
  case setDisplay v => exact storeD (dmrOf_of_display _ v) h
  case setCursorVisibility v => exact storeD (dmrOf_of_cursor _ v) h
  case setCursorBlink v => exact storeD (dmrOf_of_blink _ v) h
  all_goals exact word h

end Sys2Proof

/-! ### A byte sequence is sent whole (42_controller_ops.md R165) -/

namespace Sys2Proof.Machine

open Sys2Proof

/-- After an OK a line is reported when no byte of it is owed any more (R165). -/
theorem finish_ok_results (s : State) :
    (finish s .ok).results = if s.pending = [] then s.results ++ [.ok] else s.results := by
  unfold finish hostReceive
  cases hp : s.pending <;> simp [hp]

theorem readAddr_of_val {s : State} {a : Addr7} (h : s.i2cAddr = .val a) : readAddr s = a := by
  simp [readAddr, h]

/-- Only I2C uses the address (41_transport.md R122). -/
theorem expandMicros_addr {t : Transport} (ht : t ≠ .i2c) (p : Params) (a a' : Addr7) (ms : List Micro) :
    expandMicros p t a ms = expandMicros p t a' ms := by
  cases t
  case i2c => exact absurd rfl ht
  all_goals exact List.flatMap_congr fun m _ => by cases m <;> rfl

/-- Where a list will be answered Ok, so will its first part. -/
theorem AllOk.before {s : State} {as bs : List Action} (h : AllOk s (as ++ bs)) : AllOk s as := by
  obtain ⟨⟨rest, henv⟩, hack⟩ := h
  refine ⟨⟨List.replicate (fallibleCount bs) .ok ++ rest, ?_⟩, fun a v hm => hack a v (List.mem_append_left bs hm)⟩
  rw [henv, fallibleCount_append, List.replicate_add, List.append_assoc]

/-- READY, free to take a request, on a transport whose address, if it has one, the expander acknowledges. -/
structure Serving (s : State) : Prop where
  life : s.life = .ready
  busy : s.busy = false
  hung : s.hung = false
  port : s.busPort = []
  tsel : ∃ tr, s.tsel = .val tr
  addr : s.tsel = .val .i2c → ∃ a, s.i2cAddr = .val a ∧ acknowledges s.params a = true

/-- The actions that send a byte sequence, one request after the other. -/
def bytesActions (s : State) (bs : List Byte) : List Action := bs.flatMap fun b => expand s (dat b)

theorem bytesActions_cons (s : State) (b : Byte) (bs : List Byte) :
    bytesActions s (b :: bs) = expand s (dat b) ++ bytesActions s bs := rfl

/-- The waits between the bus words take no answer. -/
theorem fallibleCount_bytesActions (s : State) (bs : List Byte) :
    fallibleCount (bytesActions s bs) = fallibleCount (bs.flatMap fun b => wordActions s (busWord true b)) := by
  induction bs with
  | nil => rfl
  | cons b bs ih =>
    rw [bytesActions_cons, List.flatMap_cons, expand_dat, fallibleCount_append, fallibleCount_append, fallibleCount_append, ih]
    rfl

section Serving

variable {s u : State}

/-- An expansion is made from the parameters and the selection alone. -/
theorem Serving.expand_eq (h : Serving s) (hp : u.params = s.params) (ht : u.tsel = s.tsel) (ha : u.i2cAddr = s.i2cAddr)
    (ms : List Micro) : expand u ms = expand s ms := by
  obtain ⟨tr, htr⟩ := h.tsel
  rw [expand, expand, hp, readTsel_of_val htr, readTsel_of_val (ht.trans htr)]
  by_cases hi : tr = .i2c
  · obtain ⟨x, hx, -⟩ := h.addr (hi ▸ htr)
    rw [readAddr_of_val hx, readAddr_of_val (ha.trans hx)]
  · exact expandMicros_addr hi s.params _ _ ms

/-- The expander acknowledges what a data byte is sent to (41_transport.md R125). -/
theorem Serving.acknowledged (h : Serving s) (b : Byte) {a : Addr7} {v : Byte} (hm : Action.i2cTx a v ∈ expand s (dat b)) :
    acknowledges s.params a = true := by
  have hword : Action.i2cTx a v ∈ wordActions s (busWord true b) := by simpa [expand_dat] using hm
  have howned := busWrite_owned s.params (readTsel s) (readAddr s) _ _ hword
  obtain ⟨tr, ht⟩ := h.tsel
  rw [readTsel_of_val ht] at howned
  cases tr
  case p8 | p4 => simp [ownedAction] at howned
  case i2c =>
    obtain ⟨x, hx, hack⟩ := h.addr ht
    obtain rfl : x = a := by simpa [ownedAction, readAddr_of_val hx] using howned
    exact hack

/-- The state in which the request of one byte, whose primitives all answer Ok, has ended. -/
def afterByte (s : State) (b : Byte) : State :=
  finish (completeAll (startRequest s (expand s (dat b))) (expand s (dat b))) .ok

section AfterByte

variable (s : State) (b : Byte)

theorem afterByte_params : (afterByte s b).params = s.params := by simp [afterByte]
theorem afterByte_tsel : (afterByte s b).tsel = s.tsel := by simp [afterByte]
theorem afterByte_i2cAddr : (afterByte s b).i2cAddr = s.i2cAddr := by simp [afterByte]
theorem afterByte_pending : (afterByte s b).pending = s.pending := by simp [afterByte, finish_ok_pending]
theorem afterByte_responses : (afterByte s b).responses = s.responses ++ [.ok] := by simp [afterByte]

theorem afterByte_trace : (afterByte s b).trace = s.trace ++ (expand s (dat b)).map okEvent := by simp [afterByte]

theorem afterByte_results :
    (afterByte s b).results = if s.pending = [] then s.results ++ [.ok] else s.results := by
  simp [afterByte, finish_ok_results]

end AfterByte

theorem serving_afterByte (h : Serving s) (b : Byte) : Serving (afterByte s b) where
  life := by simp [afterByte, h.life, lifeAtEnd]
  busy := by simp [afterByte]
  hung := by simp [afterByte, h.hung]
  port := by simp [afterByte, h.port]
  tsel := by simpa [afterByte_tsel] using h.tsel
  addr := by simpa [afterByte_tsel, afterByte_i2cAddr, afterByte_params] using h.addr

theorem Serving.bytesActions_afterByte (h : Serving s) (b : Byte) (bs : List Byte) :
    bytesActions (afterByte s b) bs = bytesActions s bs :=
  List.flatMap_congr fun c _ =>
    h.expand_eq (afterByte_params s b) (afterByte_tsel s b) (afterByte_i2cAddr s b) (dat c)

theorem allOk_afterByte {b : Byte} {as : List Action} (h : AllOk s (expand s (dat b) ++ as)) :
    AllOk (afterByte s b) as := by
  have hafter := AllOk.after (s := startRequest s (expand s (dat b))) h
  simpa [AllOk, afterByte] using hafter

/-- The request of one byte runs to its end with OK. -/
theorem Serving.steps_byte (h : Serving s) {b : Byte} (hok : AllOk s (expand s (dat b))) :
    ∃ n, steps n (startRequest s (expand s (dat b))) = .next (afterByte s b) :=
  ⟨_, steps_request_of_allOk ⟨h.hung, rfl, h.port⟩ rfl hok⟩

/-- The next byte owed is issued in one step (R165). -/
theorem Serving.step_owed (h : Serving s) {c : Byte} {rest : List Byte} (hp : s.pending = c :: rest) :
    step s = .next (startRequest { s with pending := rest } (expand s (dat c))) :=
  (step_of_owedByte h.hung h.busy hp).trans (acceptOp_of_ready (s := { s with pending := rest }) h.life h.busy)

end Serving

/-- What a byte sequence that is sent whole leaves: READY and free, no byte owed, the actions in the trace, one response per byte,
one report. -/
structure SentWhole (s : State) (bs : List Byte) (u : State) : Prop where
  busy : u.busy = false
  life : u.life = .ready
  pending : u.pending = []
  trace : u.trace = s.trace ++ (bytesActions s bs).map okEvent
  responses : u.responses = s.responses ++ List.replicate bs.length .ok
  results : u.results = s.results ++ [.ok]

/-- The last byte of a sequence. -/
theorem Serving.sentWhole_last {s : State} (h : Serving s) (hp : s.pending = []) (b : Byte) :
    SentWhole s [b] (afterByte s b) where
  busy := (serving_afterByte h b).busy
  life := (serving_afterByte h b).life
  pending := (afterByte_pending s b).trans hp
  trace := by simp [afterByte_trace, bytesActions]
  responses := afterByte_responses s b
  results := by simp [afterByte_results, hp]

/-- A byte before a sequence that is sent whole. -/
theorem Serving.sentWhole_cons {s u : State} {c : Byte} {rest : List Byte} (h : Serving s) (hp : s.pending = c :: rest) (b : Byte)
    (hu : SentWhole { afterByte s b with pending := rest } (c :: rest) u) : SentWhole s (b :: c :: rest) u where
  busy := hu.busy
  life := hu.life
  pending := hu.pending
  trace := by
    have hacts : bytesActions { afterByte s b with pending := rest } (c :: rest) = bytesActions s (c :: rest) :=
      h.bytesActions_afterByte b (c :: rest)
    rw [hu.trace, hacts, bytesActions_cons s b, List.map_append, ← List.append_assoc, ← afterByte_trace]
  responses := by
    rw [hu.responses, afterByte_responses, List.append_assoc]
    rfl
  results := by simp [hu.results, afterByte_results, hp]

/-- A byte just issued, and after it the bytes owed, each by a step of its own, are sent whole. -/
theorem Serving.exists_sentWhole {s : State} {b : Byte} {rest : List Byte} (h : Serving s) (hp : s.pending = rest)
    (hok : AllOk s (bytesActions s (b :: rest))) :
    ∃ n u, steps n (startRequest s (expand s (dat b))) = .next u ∧ SentWhole s (b :: rest) u := by
  induction rest generalizing s b with
  | nil =>
    obtain ⟨n, hn⟩ := h.steps_byte (AllOk.before hok)
    exact ⟨n, _, hn, h.sentWhole_last hp b⟩
  | cons c rest ih =>
    obtain ⟨n, hn⟩ := h.steps_byte (AllOk.before hok)
    have hserving : Serving { afterByte s b with pending := rest } := { serving_afterByte h b with }
    have hrest : AllOk (afterByte s b) (bytesActions (afterByte s b) (c :: rest)) := by
      rw [h.bytesActions_afterByte]
      exact allOk_afterByte hok
    obtain ⟨k, u, hk, hu⟩ := ih hserving rfl hrest
    refine ⟨n + (k + 1), u, ?_, h.sentWhole_cons hp b hu⟩
    rw [steps_add hn, steps, (serving_afterByte h b).step_owed ((afterByte_pending s b).trans hp)]
    exact hk

end Sys2Proof.Machine

namespace Sys2Proof

open Machine

/-- Settles O44: by induction on the bytes owed. An empty sequence is reported at once. -/
theorem byteSequenceRunsToOk : Obligations.ByteSequenceRunsToOk := by
  intro s seq hl hb hh hw hp htsel haddr henv
  cases seq with
  | nil => exact ⟨_, 0, _, rfl, rfl, hb, hl, hp, by simp, by simp, rfl⟩
  | cons b rest =>
    have hserving : Serving { s with pending := rest } := ⟨hl, hb, hh, hw, htsel, haddr⟩
    rw [← fallibleCount_bytesActions] at henv
    have hack (a : Addr7) (v : Byte) (hm : Action.i2cTx a v ∈ bytesActions s (b :: rest)) : acknowledges s.params a = true := by
      obtain ⟨c, -, hc⟩ := List.mem_flatMap.mp hm
      exact hserving.acknowledged c hc
    obtain ⟨n, u, hn, hu⟩ := hserving.exists_sentWhole (b := b) rfl ⟨henv, hack⟩
    exact ⟨_, n, u, acceptOp_of_ready (s := { s with pending := rest }) hl hb, hn, hu.busy, hu.life, hu.pending, hu.trace,
      hu.responses, hu.results⟩

end Sys2Proof

/-! ## The initialization sequences (43_init_sequencer.md)

An init list is the power-on wait and then commands, each with one wait: what holds of one command is carried over the list by
going through its commands. -/

/-! ### The init list, command by command (43_init_sequencer.md R191 to R195) -/

namespace Sys2Proof.Machine

open Sys2Proof

/-- The commands of the init path of a transport, each with the wait listed after it (R191, R192). -/
def initCommands (t : Transport) (e : BitVec 2) : List (Byte × Duration) :=
  if onPath8 t then
    [(INIT8_A, .initLong), (FS8, .initShort), (DC_INIT, .initShort), (CLEAR, .initShort), (EM_INIT8, .initShort),
      (encEntry e, .initShort)]
  else
    [(INIT4_A, .initLong), (INIT4_B, .initShort), (FS4, .initShort), (DC_INIT, .initShort), (CLEAR, .initShort),
      (encEntry e, .initShort), (DDRAM0, .initShort)]

/-- The actions of commands, each followed by its wait. -/
def commandActions (p : Params) (t : Transport) (a : Addr7) (cs : List (Byte × Duration)) : List Action :=
  expandMicros p t a (cs.flatMap fun c => cmd c.1 c.2)

theorem commandActions_cons (p : Params) (t : Transport) (a : Addr7) (c : Byte × Duration) (cs : List (Byte × Duration)) :
    commandActions p t a (c :: cs) = busWrite p t a (busWord false c.1) ++ .wait c.2 :: commandActions p t a cs := rfl

/-- An init list is the power-on wait and the commands of its path. -/
theorem expandMicros_initSeq (p : Params) (t : Transport) (a : Addr7) (e : BitVec 2) :
    expandMicros p t a (initSeq t e) = .wait .powerOn :: commandActions p t a (initCommands t e) := by
  cases t <;> rfl

/-! ### Sizes (R200) -/

/-- How many actions a command write is (41_transport.md R116, R119, R122, R123). -/
def commandLength : Transport → NibbleSeq → Nat
  | .p8, _ => 13
  | .p4, _ => 17
  | .i2c, .threeByte => 10
  | .i2c, .twoByte => 8

theorem length_busWrite_command (p : Params) (t : Transport) (a : Addr7) (b : Byte) :
    (busWrite p t a (busWord false b)).length = commandLength t p.nibbleSeq := by
  cases t
  case i2c => cases h : p.nibbleSeq <;> simp [busWrite, i2cWrite, i2cNib, h, commandLength]
  all_goals simp [busWrite, p8Write, p4Write, nib4, pulse, dropRs, commandLength]

theorem length_commandActions (p : Params) (t : Transport) (a : Addr7) (cs : List (Byte × Duration)) :
    (commandActions p t a cs).length = cs.length * (commandLength t p.nibbleSeq + 1) := by
  induction cs with
  | nil => exact (Nat.zero_mul _).symm
  | cons c cs ih =>
    rw [commandActions_cons, List.length_append, length_busWrite_command, List.length_cons, ih, List.length_cons]
    ring

/-- The number of actions of an init list (R200). -/
theorem length_initList (p : Params) (t : Transport) (a : Addr7) (e : BitVec 2) :
    (expandMicros p t a (initSeq t e)).length = (initCommands t e).length * (commandLength t p.nibbleSeq + 1) + 1 := by
  rw [expandMicros_initSeq, List.length_cons, length_commandActions]

/-- An action that raises EN: a drive of the pin to H, or a payload with its bit set (41_transport.md R115, R122). -/
def raisesEn (p : Params) : Action → Bool
  | .i2cTx _ v => !enLow p v
  | x => decide (x = .drive .en .H)

/-- How many enable pulses a bus word is given (41_transport.md R116, R119, R123). -/
def pulseCount (t : Transport) : Nat := if onPath8 t then 1 else 2

section Pulses

variable {p : Params} (hm : p.expMap.wf = true) (t : Transport) (a : Addr7)

include hm

theorem countP_raisesEn_i2cNib (n : Nibble) (d : Bool) : (i2cNib p a n d).countP (raisesEn p) = 1 := by
  have hhigh : enLow p (payload p n d true) = false := by
    rw [Bool.eq_false_iff, ne_eq, enLow_iff, expanderLines_payload hm]
    nofun
  cases hn : p.nibbleSeq <;> simp [i2cNib, hn, raisesEn, hhigh, enLow_payload hm]

theorem countP_raisesEn_command (b : Byte) : (busWrite p t a (busWord false b)).countP (raisesEn p) = pulseCount t := by
  cases t
  case i2c => simp [busWrite, i2cWrite, countP_raisesEn_i2cNib hm, pulseCount, onPath8]
  all_goals simp [busWrite, p8Write, p4Write, nib4, pulse, dropRs, raisesEn, pulseCount, onPath8]

theorem countP_raisesEn_commandActions (cs : List (Byte × Duration)) :
    (commandActions p t a cs).countP (raisesEn p) = cs.length * pulseCount t := by
  induction cs with
  | nil => exact (Nat.zero_mul _).symm
  | cons c cs ih =>
    rw [commandActions_cons, List.countP_append, countP_raisesEn_command hm, List.countP_cons_of_neg (by simp [raisesEn]), ih,
      List.length_cons]
    ring

/-- The number of enable pulses of an init list (R200). -/
theorem countP_raisesEn_initList (e : BitVec 2) :
    (expandMicros p t a (initSeq t e)).countP (raisesEn p) = (initCommands t e).length * pulseCount t := by
  rw [expandMicros_initSeq, List.countP_cons_of_neg (by simp [raisesEn]), countP_raisesEn_commandActions hm]

end Pulses

/-! ### The shadow registers during an init (R190; 10_state.md R30, R33) -/

theorem noShadowWrite_commandActions (p : Params) (t : Transport) (a : Addr7) (cs : List (Byte × Duration)) :
    ∀ x ∈ commandActions p t a cs, NoShadowWrite x := by
  induction cs with
  | nil => nofun
  | cons c cs ih =>
    exact List.forall_mem_append.mpr ⟨noShadowWrite_busWrite p t a _, List.forall_mem_cons.mpr ⟨by simp [NoShadowWrite], ih⟩⟩

/-- An init list writes no shadow register: construction has written them. -/
theorem noShadowWrite_initList (p : Params) (t : Transport) (a : Addr7) (e : BitVec 2) :
    ∀ x ∈ expandMicros p t a (initSeq t e), NoShadowWrite x := by
  rw [expandMicros_initSeq]
  exact List.forall_mem_cons.mpr ⟨by simp [NoShadowWrite], noShadowWrite_commandActions p t a _⟩

/-- Actions that write no shadow register leave both as they were. -/
theorem completeAll_shadow_of_noShadowWrite {s : State} {as : List Action} (h : ∀ a ∈ as, NoShadowWrite a) :
    (completeAll s as).emr = s.emr ∧ (completeAll s as).dmr = s.dmr := by
  induction as generalizing s with
  | nil => exact ⟨rfl, rfl⟩
  | cons a as ih =>
    obtain ⟨ha, has⟩ := List.forall_mem_cons.mp h
    obtain ⟨hemr, hdmr⟩ := ih has (s := completeAction (afterAnswer s a) a)
    obtain ⟨hemr', hdmr'⟩ := applyAction_shadow_of_noShadowWrite (afterAnswer s a) ha
    exact ⟨hemr.trans (by simpa using hemr'), hdmr.trans (by simpa using hdmr')⟩

/-! ### Acceptance (R190) -/

/-- A construction is refused unless `LIFE` is UNBUILT and no request runs (R190). -/
theorem acceptConstruction_refused {t : Transport} {addr : XVal Addr7} {q : BitVec 2 → List Micro} {s : State}
    (h : ¬ (s.life = .unbuilt ∧ s.busy = false)) : ∃ r, acceptConstruction t addr q s = .refused r := by
  unfold acceptConstruction
  split
  case h_1 hl => exact ⟨.requestInProgress, if_pos (by simpa [hl] using h)⟩
  all_goals exact ⟨_, rfl⟩

end Sys2Proof.Machine

namespace Sys2Proof

open Machine

/-- Settles O14: acceptance writes the registers and loads the expansion of the init list, whose items are those listed. -/
theorem constructionsAccepted : Obligations.ConstructionsAccepted :=
  fun _ _ hl hb => ⟨acceptConstruction_of_unbuilt hl hb, acceptConstruction_of_unbuilt hl hb,
    acceptConstruction_of_unbuilt hl hb⟩

/-- Settles O18: every construction is an `acceptConstruction`, whose two cases these are. -/
theorem constructionOnlyOnce : Obligations.ConstructionOnlyOnce := by
  intro i s hk
  obtain ⟨t, addr, hi⟩ := exec_construction_eq hk
  rw [hi]
  refine ⟨⟨fun ⟨_, hu⟩ => ?_, fun ⟨hl, hb⟩ => ⟨_, acceptConstruction_of_unbuilt hl hb⟩⟩, acceptConstruction_refused⟩
  obtain ⟨hl, hb, -⟩ := acceptConstruction_next hu
  exact ⟨hl, hb⟩

/-- Settles O40: an accepted construction is a request just started, so its whole list completes, and its end gives READY. -/
theorem constructionRunsToReady : Obligations.ConstructionRunsToReady := by
  intro i s u hk hh hw h hok
  obtain ⟨-, -, t, addr, -, -, rfl⟩ := exec_construction hk h
  have hr : Running (startRequest (constructed t addr s) (expand (constructed t addr s) (initSeq t emrAtConstruction))) :=
    ⟨hh, rfl, hw⟩
  obtain ⟨hemr, hdmr⟩ := completeAll_shadow_of_noShadowWrite (s := startRequest _ _)
    (noShadowWrite_initList s.params t (readAddr (constructed t addr s)) emrAtConstruction)
  refine ⟨_, steps_request_of_allOk hr rfl hok, by simp [lifeAtEnd_true], by simp, by simp, (finish_emr ..).trans hemr,
    (finish_dmr ..).trans hdmr, by simp, by simp, (length_initList s.params t _ emrAtConstruction).trans ?_⟩
  cases t
  case i2c => cases s.params.nibbleSeq <;> rfl
  all_goals rfl

/-- Settles O52: the pulses and the actions of a list are those of its commands, added up. -/
theorem initListSizes : Obligations.InitListSizes := by
  intro p a e hm
  have hraises {q : Action → Bool} (hq : ∀ x, q x = raisesEn p x) (t : Transport) :
      ((expandMicros p t a (initSeq t e)).filter q).length = (initCommands t e).length * pulseCount t := by
    rw [funext hq, ← List.countP_eq_length_filter, countP_raisesEn_initList hm]
  have hlength (t : Transport) := length_initList p t a e
  refine ⟨rfl, rfl, rfl, rfl, rfl, rfl, hraises ?onP4 .p4, hraises ?onI2c .i2c, hraises ?onP8 .p8, hlength .p4, hlength .p8,
    (hlength .i2c).trans ?actions⟩
  case actions => cases p.nibbleSeq <;> rfl
  all_goals
    intro x
    cases x <;> rfl

end Sys2Proof

/-! ### What the LCD latches of an init (R201) -/

namespace Sys2Proof.Machine

open Sys2Proof

/-- What the LCD latches of one bus word: the byte on P8, its upper and its lower nibble on P4 and I2C (41_transport.md R127). -/
def writeLatches (t : Transport) (b : Byte) (d : Bool) : List Latch :=
  let latched := fun (k : List Nat) => (⟨bitLevel d, k.map fun j => bitLevel (b.getLsbD j), true⟩ : Latch)
  if onPath8 t then [latched [7, 6, 5, 4, 3, 2, 1, 0]] else [latched [7, 6, 5, 4], latched [3, 2, 1, 0]]

theorem latchOf_self (l : Lines) : latchOf l l = [] := by
  unfold latchOf
  cases l.e <;> rfl

/-- A wait latches nothing and changes no line (41_transport.md R113). -/
theorem latchesFrom_wait (p : Params) (t : Transport) (ps : Pins) (o : XVal Byte) (d : Duration) (es : List Event) :
    latchesFrom p t ps o (okEvent (.wait d) :: es) = latchesFrom p t ps o es :=
  congrArg (· ++ latchesFrom p t ps o es) (latchOf_self _)

section Latched

variable {p : Params} {t : Transport} {ps : Pins} {o : XVal Byte}

/-- On I2C, E is the expander's (41_transport.md R126). -/
theorem linesOf_e_i2c (v : Byte) : (linesOf p .i2c ps (.val v)).e = if enLow p v then .L else .H := by
  cases h : v.getLsbD p.expMap.en.val <;> simp only [linesOf_i2c, expanderLines, outLevel_val, enLow, h] <;> rfl

theorem linesOf_e_of_enLow {v : Byte} (hv : enLow p v = true) : (linesOf p .i2c ps (.val v)).e = .L := enLow_iff.mp hv

/-- On I2C, E can be low only where `OUT` is known. -/
theorem exists_enLow_of_i2c_low (h : (linesOf p .i2c ps o).e = .L) : ∃ v, o = .val v ∧ enLow p v = true := by
  cases o with
  | x => cases h
  | val v => exact ⟨v, rfl, enLow_iff.mpr h⟩

/-- One write from a state with E low latches its byte, or both its nibbles. -/
theorem latchesFrom_busWrite (hm : p.expMap.wf = true) (hlow : (linesOf p t ps o).e = .L) (a : Addr7) (b : Byte) (d : Bool) :
    latchesFrom p t ps o ((busWrite p t a (busWord d b)).map okEvent) = writeLatches t b d := by
  simp only [busWrite, busByte_busWord, isData_busWord]
  cases t
  case p8 => exact latchesFrom_p8Write hlow b d
  case p4 => exact latchesFrom_p4Write hlow b d
  case i2c =>
    obtain ⟨v, rfl, hv⟩ := exists_enLow_of_i2c_low hlow
    exact latchesFrom_i2cWrite hm hv a b d

/-- Every write ends with E low, whatever it was before (41_transport.md R129). -/
theorem linesOf_e_after_busWrite (hm : p.expMap.wf = true) (a : Addr7) (b : Byte) (d : Bool) :
    (linesOf p t (pinsThrough ps ((busWrite p t a (busWord d b)).map okEvent))
      (outThrough o ((busWrite p t a (busWord d b)).map okEvent))).e = .L := by
  simp only [busWrite, busByte_busWord, isData_busWord]
  cases t
  case p8 => exact congrArg Lines.e (linesOf_after_p8Write ps _ b d p)
  case p4 => exact congrArg Lines.e (linesOf_after_p4Write ps _ b d p)
  case i2c =>
    rw [outThrough_i2cWrite]
    exact enLow_iff.mp (enLow_payload hm _ _)

/-- From a state with E low, commands latch the byte or the nibbles of each. -/
theorem latchesFrom_commandActions (hm : p.expMap.wf = true) (hlow : (linesOf p t ps o).e = .L) (a : Addr7)
    (cs : List (Byte × Duration)) :
    latchesFrom p t ps o ((commandActions p t a cs).map okEvent) = cs.flatMap fun c => writeLatches t c.1 false := by
  induction cs generalizing ps o with
  | nil => rfl
  | cons c cs ih =>
    rw [commandActions_cons, List.map_append, latchesFrom_append, latchesFrom_busWrite hm hlow, List.map_cons, latchesFrom_wait,
      ih (linesOf_e_after_busWrite hm a c.1 false), List.flatMap_cons]

/-- The first byte of the init path of a transport (R191, R192: step 1). -/
def firstInitByte (t : Transport) : Byte := if onPath8 t then INIT8_A else INIT4_A

theorem initCommands_eq_cons (t : Transport) (e : BitVec 2) : ∃ d cs, initCommands t e = (firstInitByte t, d) :: cs := by
  cases t <;> exact ⟨_, _, rfl⟩

/-- The transfers of an init list: those of each of its commands (R201). -/
def initTransfers (t : Transport) (e : BitVec 2) : List Latch := (initCommands t e).flatMap fun c => writeLatches t c.1 false

/-- What an init latches: only its first command may make an event more, since E is low from there on. -/
theorem latchesFrom_initSeq (hm : p.expMap.wf = true) {a : Addr7} {extra : List Latch}
    (hfirst : latchesFrom p t ps o ((busWrite p t a (busWord false (firstInitByte t))).map okEvent) =
      extra ++ writeLatches t (firstInitByte t) false) (e : BitVec 2) :
    latchesFrom p t ps o ((expandMicros p t a (initSeq t e)).map okEvent) = extra ++ initTransfers t e := by
  obtain ⟨d, cs, hcs⟩ := initCommands_eq_cons t e
  rw [expandMicros_initSeq, initTransfers, hcs, List.map_cons, latchesFrom_wait, commandActions_cons, List.map_append,
    latchesFrom_append, hfirst, List.map_cons, latchesFrom_wait, latchesFrom_commandActions hm (linesOf_e_after_busWrite hm ..),
    List.flatMap_cons, List.append_assoc]

/-! ### The first command, from power-on (41_transport.md R127; 70_reset_and_hazards.md R253) -/

@[simp] theorem Drv.level_H : Drv.H.level = .H := rfl

/-- With every pin at X the first write latches what any other does: its pulse raises E before it lets it fall. -/
theorem latchesFrom_busWrite_of_allX (ht : t ≠ .i2c) (a : Addr7) (b : Byte) (d : Bool) :
    latchesFrom p t .allX o ((busWrite p t a (busWord d b)).map okEvent) = writeLatches t b d := by
  simp only [busWrite, busByte_busWord, isData_busWord]
  cases t
  case i2c => exact absurd rfl ht
  case p8 =>
    cases d <;>
      simp [p8Write, pulse, dropRs, latchesFrom, okEvent, pinsAfter, tookEffect, Pins.set, Pins.allX, linesOf, latchOf,
        writeLatches, onPath8]
  case p4 =>
    cases d <;>
      simp [p4Write, nib4, upperNibble, lowerNibble, pulse, dropRs, latchesFrom, okEvent, pinsAfter, tookEffect, Pins.set,
        Pins.allX, linesOf, latchOf, writeLatches, onPath8]

/-- Under ThreeByte the first payload lets E fall, if it was not low; after it the write latches what any other does (R124). -/
theorem latchesFrom_i2cWrite_of_threeByte (hm : p.expMap.wf = true) (hn : p.nibbleSeq = .threeByte) (a : Addr7) (b : Byte)
    (d : Bool) :
    latchesFrom p .i2c ps o ((busWrite p .i2c a (busWord d b)).map okEvent) =
      latchOf (linesOf p .i2c ps o) (linesOf p .i2c ps (.val (payload p (upperNibble b) d false))) ++ writeLatches .i2c b d := by
  have hlow : (linesOf p .i2c ps (.val (payload p (upperNibble b) d false))).e = .L :=
    linesOf_e_of_enLow (enLow_payload hm _ _)
  rw [← latchesFrom_busWrite hm hlow a b d]
  simp [busWrite, i2cWrite, i2cNib, hn, latchesFrom, okEvent, pinsAfter, outAfter, tookEffect, latchOf_self]

theorem latchOf_of_rise {before after : Lines} (h : after.e = .H) : latchOf before after = [] := by
  unfold latchOf
  rw [h]
  cases before.e <;> rfl

/-- Under TwoByte the first payload raises E, so the write latches what any other does, whatever E was. -/
theorem latchesFrom_i2cWrite_of_twoByte (hm : p.expMap.wf = true) (hn : p.nibbleSeq = .twoByte) (a : Addr7) (b : Byte)
    (d : Bool) : latchesFrom p .i2c ps o ((busWrite p .i2c a (busWord d b)).map okEvent) = writeLatches .i2c b d := by
  have hlow : (linesOf p .i2c ps (.val (payload p (upperNibble b) d false))).e = .L :=
    linesOf_e_of_enLow (enLow_payload hm _ _)
  have hrise (o : XVal Byte) : latchOf (linesOf p .i2c ps o) (linesOf p .i2c ps (.val (payload p (upperNibble b) d true))) = [] :=
    latchOf_of_rise (by rw [linesOf_i2c, expanderLines_payload hm]; rfl)
  rw [← latchesFrom_busWrite hm hlow a b d]
  simp [busWrite, i2cWrite, i2cNib, hn, latchesFrom, okEvent, pinsAfter, outAfter, tookEffect, hrise]

end Latched

/-- Where E falls, one transfer is latched; it is certain where E was high (41_transport.md R127). -/
theorem latchOf_of_fall {before after : Lines} (hb : before.e ≠ .L) (ha : after.e = .L) :
    ∃ l : Latch, l.certain = decide (before.e = .H) ∧ latchOf before after = [l] := by
  unfold latchOf
  rw [ha]
  cases hbe : before.e
  case L => exact absurd hbe hb
  all_goals exact ⟨_, rfl, rfl⟩

/-- Under ThreeByte an init makes one event more where E was not low at power-on. -/
theorem latchesFrom_initSeq_of_threeByte {p : Params} {o : XVal Byte} (hm : p.expMap.wf = true) (hn : p.nibbleSeq = .threeByte)
    (ho : (linesOf p .i2c .allX o).e ≠ .L) (a : Addr7) (e : BitVec 2) :
    ∃ first : Latch, first.certain = decide ((linesOf p .i2c .allX o).e = .H) ∧
      latchesFrom p .i2c .allX o ((expandMicros p .i2c a (initSeq .i2c e)).map okEvent) = first :: initTransfers .i2c e := by
  obtain ⟨first, hcertain, hfall⟩ := latchOf_of_fall ho (linesOf_e_of_enLow (enLow_payload hm (upperNibble INIT4_A) false))
  have hfirst := latchesFrom_i2cWrite_of_threeByte hm hn (ps := .allX) (o := o) a INIT4_A false
  exact ⟨first, hcertain, latchesFrom_initSeq hm (hfirst.trans (congrArg (· ++ _) hfall)) e⟩

end Sys2Proof.Machine

namespace Sys2Proof

open Machine

/-- Settles O51: the first command by the state of E at power-on, and the others with E low. -/
theorem initLatches : Obligations.InitLatches := by
  intro p a hm run nib byte path4
  have hp8 : initTransfers .p8 emrAtConstruction = [0x30#8, 0x38#8, 0x0E#8, 0x01#8, 0x07#8, 0x06#8].map byte := by decide
  have hp4 : initTransfers .p4 emrAtConstruction = path4 := by decide
  have hi2c : initTransfers .i2c emrAtConstruction = path4 := hp4
  have hextra {o : XVal Byte} (hn : p.nibbleSeq = .threeByte) (ho : (linesOf p .i2c .allX o).e ≠ .L) :=
    latchesFrom_initSeq_of_threeByte hm hn ho a emrAtConstruction
  refine ⟨fun o => ⟨?_, ?_⟩, fun v hv => ?_, fun hn => ⟨fun v hv => ?_, ?_⟩, fun hn o => ?_⟩
  · exact (latchesFrom_initSeq (extra := []) hm (latchesFrom_busWrite_of_allX (t := .p8) nofun a _ _) _).trans hp8
  · exact (latchesFrom_initSeq (extra := []) hm (latchesFrom_busWrite_of_allX (t := .p4) nofun a _ _) _).trans hp4
  · exact (latchesFrom_initSeq (extra := []) hm (latchesFrom_busWrite hm (linesOf_e_of_enLow hv) a _ _) _).trans hi2c
  · have he : (linesOf p .i2c .allX (.val v)).e = .H := by simp [linesOf_e_i2c, hv]
    obtain ⟨first, hcertain, hrun⟩ := hextra (o := .val v) hn (by simp [he])
    exact ⟨first, hcertain.trans (decide_eq_true he), hrun.trans (congrArg _ hi2c)⟩
  · obtain ⟨first, hcertain, hrun⟩ := hextra (o := .x) hn nofun
    exact ⟨first, hcertain, hrun.trans (congrArg _ hi2c)⟩
  · exact (latchesFrom_initSeq (extra := []) hm (latchesFrom_i2cWrite_of_twoByte hm hn a _ _) _).trans hi2c

end Sys2Proof

/-! ## Errors, hangs and the waiting host (60_exceptions.md)

How a request ends early: what the error entry leaves, and where in a list the first failure stands; and what the host's side keeps
while a request runs. -/

namespace Sys2Proof.Machine

open Sys2Proof

/-! ### The error entry (60_exceptions.md R214) -/

/-- A request that fails takes INIT to ABSENT and leaves every other `LIFE` (43_init_sequencer.md R197; 60_exceptions.md R215). -/
theorem lifeAtEnd_false (l : Life) : lifeAtEnd l false = if l = .init then .absent else l := by
  cases l <;> rfl

section ErrorEntry

variable (s : State) {a : Action} (took : Bool)

/-- A failed action leaves every pin it does not drive. -/
theorem errorEntry_pins_get_of_ne {q : Pin} (hq : ∀ l, a ≠ .drive q l) :
    (errorEntry s a took).pins.get q = s.pins.get q := by
  cases took
  case false => simp
  case true =>
    cases a
    case drive p l =>
      have hpq : p ≠ q := fun h => hq l (by rw [h])
      simpa using Pins.get_set_of_ne s.pins p q l.level hpq
    all_goals simp

/-- A failed drive leaves its pin at the old level or at the new one (41_transport.md R111). -/
theorem errorEntry_drive_pins_get (q : Pin) (l : Drv) :
    (errorEntry s (.drive q l) took).pins.get q = s.pins.get q ∨ (errorEntry s (.drive q l) took).pins.get q = l.level := by
  cases took
  case false => exact .inl (by simp)
  case true => exact .inr (by simp [Pins.get_set_same])

/-- A failed action that is no transaction leaves `OUT`. -/
theorem errorEntry_out_of_ne (ha : ∀ x v, a ≠ .i2cTx x v) : (errorEntry s a took).out = s.out := by
  cases took
  case false => simp
  case true =>
    obtain ho | ⟨x, v, rfl, -⟩ := applyAction_out_cases s a
    · simpa using ho
    · exact absurd rfl (ha x v)

/-- A failed transaction leaves `OUT` at the old byte or at the new one (41_transport.md R112). -/
theorem errorEntry_i2cTx_out (x : Addr7) (v : Byte) :
    (errorEntry s (.i2cTx x v) took).out = s.out ∨ (errorEntry s (.i2cTx x v) took).out = .val v := by
  cases took
  case false => exact .inl (by simp)
  case true => exact .inr (by simp)

end ErrorEntry

/-! ### The stuck state (60_exceptions.md R213; log 6) -/

theorem step_of_hung {s : State} (hh : s.hung = true) : step s = .fault .hung := by
  simp [step, nextMove, hh]

/-! ### The host while a request runs (60_exceptions.md R225) -/

/-- An instruction that is run while a request runs leaves the host's lines and the owed bytes: it adds a bus word, or reports an
empty byte sequence. -/
theorem exec_keeps_host_of_busy {i : Instr} {s t : State} (hb : s.busy = true) (h : exec i s = .next t) :
    t.program = s.program ∧ t.pending = s.pending := by
  cases hk : i.kind
  case operation =>
    obtain ⟨-, hidle, -⟩ := exec_operation hk h
    simp [hb] at hidle
  case construction =>
    obtain ⟨-, hidle, -⟩ := exec_construction hk h
    simp [hb] at hidle
  case pseudo =>
    obtain rfl | ⟨_, _, -, hidle, -⟩ := exec_pseudo hk h
    · exact ⟨rfl, rfl⟩
    · simp [hb] at hidle
  case busWord =>
    obtain ⟨-, -, _, rfl⟩ := exec_word (.inl hk) h
    exact ⟨rfl, rfl⟩
  case initLiteral =>
    obtain ⟨-, -, _, rfl⟩ := exec_word (.inr hk) h
    exact ⟨rfl, rfl⟩

/-- The running request takes no line of the host's program. -/
theorem runAction_program (s : State) : (runAction s).program = s.program := by
  obtain ⟨-, h⟩ | ⟨a, -, h⟩ := runAction_cases s <;> rw [h]
  · simp
  · obtain h | ⟨took, -, h⟩ | ⟨-, h⟩ := runOne_cases s a <;> simp [h]

/-- The running request takes no owed byte: only its error drops them, all at once (42_controller_ops.md R165). -/
theorem runAction_pending (s : State) :
    (runAction s).pending = s.pending ∨
      ((runAction s).pending = [] ∧ (runAction s).resp = .err ∧ (runAction s).busy = false) := by
  obtain ⟨-, h⟩ | ⟨a, -, h⟩ := runAction_cases s <;> rw [h]
  · exact .inl (finish_ok_pending s)
  · obtain h | ⟨took, -, h⟩ | ⟨-, h⟩ := runOne_cases s a <;> rw [h]
    · exact .inl (by simp)
    · exact .inr (by simp)
    · exact .inl (by simp)

/-! ### The first failure in a list (60_exceptions.md R217) -/

/-- The fallible action of a list that takes answer `k`, and the actions before it, which take the `k` answers before. -/
theorem exists_fallible_of_lt_fallibleCount {as : List Action} {k : Nat} (hk : k < fallibleCount as) :
    ∃ pre a post, as = pre ++ a :: post ∧ fallible a = true ∧ fallibleCount pre = k := by
  induction as generalizing k with
  | nil => simp [fallibleCount] at hk
  | cons b as ih =>
    cases hb : fallible b
    case false =>
      obtain ⟨pre, a, post, rfl, ha, hpre⟩ := ih (k := k) (by simpa [fallibleCount, hb] using hk)
      exact ⟨b :: pre, a, post, rfl, ha, by simpa [fallibleCount, hb] using hpre⟩
    case true =>
      cases k with
      | zero => exact ⟨[], b, as, rfl, hb, rfl⟩
      | succ k =>
        obtain ⟨pre, a, post, rfl, ha, hpre⟩ := ih (k := k) (by simpa [fallibleCount, hb] using hk)
        exact ⟨b :: pre, a, post, rfl, ha, by simpa [fallibleCount, hb] using hpre⟩

/-- A request just started whose primitives are answered Ok up to some action, which is then answered Err: it ends there. -/
theorem steps_of_firstErr {s : State} {pre post : List Action} {a : Action} {took : Bool} (hr : Running s) (hpc : s.pc = 0)
    (hacts : s.acts = pre ++ a :: post) (hok : AllOk s pre) (hf : fallible a = true)
    (hn : nextAnswer (completeAll s pre) = .err took) :
    steps (pre.length + 1) s = .next (errorEntry (drawn (completeAll s pre)) a took) := by
  have hrun : steps pre.length s = .next (completeAll s pre) := steps_of_allOk hr (by rw [hpc, hacts]; rfl) hok
  have ha : (completeAll s pre).acts[(completeAll s pre).pc]? = some a := by simp [hpc, hacts]
  rw [steps_add hrun, steps, step_of_drawnErr (running_completeAll hr pre) ha hf hn]
  rfl

end Sys2Proof.Machine

namespace Sys2Proof

open Machine

/-- Settles O25: the step is the error entry, whose fields are read off; a lemma each for what the failed target holds. -/
theorem errorEntryEffect : Obligations.ErrorEntryEffect := by
  intro s a took hr ha hf herr
  obtain ⟨hemr, hdmr⟩ := errorEntry_shadow_of_fallible (afterAnswer s a) took hf
  refine ⟨_, step_of_answerErr hr ha herr, by simp, by simp, by simp, by simp, by simp [lifeAtEnd_false],
    by simpa using hemr, by simpa using hdmr, by simp, by simp, fun q hq => ?_, ?_, fun hout => ?_, ?_, by simp⟩
  · rw [errorEntry_pins_get_of_ne _ took hq, afterAnswer_pins]
  · rintro q l rfl
    simpa only [afterAnswer_pins] using errorEntry_drive_pins_get (afterAnswer s (.drive q l)) took q l
  · rw [errorEntry_out_of_ne _ took hout, afterAnswer_out]
  · rintro x v rfl
    simpa only [afterAnswer_out] using errorEntry_i2cTx_out (afterAnswer s (.i2cTx x v)) took x v

/-- Settles O27: the step is the hang, and the state after it is stuck. -/
theorem hangNeverAnswers : Obligations.HangNeverAnswers := by
  intro s a hr ha _ hhang
  have hstep := step_of_answerHang hr ha hhang
  obtain ⟨-, hb, -⟩ := hr
  exact ⟨_, hstep, by simp [hb], by simp, by simp, by simp, by simp, step_of_hung rfl⟩

/-- Settles O36: with BUSY = 1 a step takes a bus word or is one of the running request. -/
theorem hostWaitsWhileBusy : Obligations.HostWaitsWhileBusy := by
  intro s t hb h
  obtain ⟨-, ⟨-, _, port, _, -, -, he⟩ | ⟨-, -, rfl⟩ | ⟨hidle, -⟩ | ⟨hidle, -⟩ | ⟨hidle, -⟩⟩ := step_cases h
  · obtain ⟨hprog, hpend⟩ := exec_keeps_host_of_busy (s := { s with busPort := port }) hb he
    exact ⟨hprog, .inl hpend⟩
  · exact ⟨runAction_program s, runAction_pending s⟩
  all_goals simp [hb] at hidle

/-- Settles O42: the fallible action that takes answer `k` splits the list; the part before it completes, and it fails. -/
theorem firstErrorEndsTheRequest : Obligations.FirstErrorEndsTheRequest := by
  intro s k took rest hr hpc hack hk henv
  obtain ⟨pre, a, post, hacts, hf, rfl⟩ := exists_fallible_of_lt_fallibleCount hk
  have hok : AllOk s pre := ⟨⟨_, henv⟩, fun x v hm => hack x v (by rw [hacts]; exact List.mem_append_left _ hm)⟩
  have hscript : (completeAll s pre).env = .err took :: rest := by
    rw [completeAll_env, henv, List.drop_left' (by simp)]
  have hn : nextAnswer (completeAll s pre) = .err took := by simp only [nextAnswer, hscript]
  exact ⟨pre, a, post, _, hacts, hf, rfl, steps_of_firstErr hr hpc hacts hok hf hn, by simp, by simp, by simp,
    by simp [lifeAtEnd_false], by rw [errorEntry_env, drawn_env, hscript, List.tail_cons]⟩

end Sys2Proof

/-! ## Reset and hazards (70_reset_and_hazards.md)

The state at reset, the silence before construction, a wrong expander address, the half byte an error leaves at the LCD, and the
minimum waits. -/

/-! ### Before construction (R241, R243) -/

namespace Sys2Proof.Machine

open Sys2Proof

/-- With no request running, a move is the host's only, or starts a request: in READY an operation's, in UNBUILT an init list's,
whose first action is the power-on wait (43_init_sequencer.md R191, R192). -/
theorem BlockStep.of_idle {s t : State} (hb : s.busy = false) (h : BlockStep s t) :
    SameBlock s t ∨ s.life = .ready ∨ (s.life = .unbuilt ∧ t.acts.head? = some (.wait .powerOn)) := by
  cases h
  case hostOnly hu => exact .inl hu
  case operation hl _ _ => exact .inr (.inl hl)
  case construction tr _ hl _ _ _ _ => exact .inr (.inr ⟨hl, congrArg List.head? (expandMicros_initSeq _ tr _ _)⟩)
  all_goals exact absurd ‹s.busy = true› (by simp [hb])

end Sys2Proof.Machine

namespace Sys2Proof

open Machine

/-- Settles O7: the fields of the state at reset, with every pin at X. -/
theorem launchPremise : Obligations.LaunchPremise := ⟨rfl, rfl, rfl, rfl, Pins.get_allX, by decide⟩

/-- Before construction no request runs (10_state.md R21, R25). -/
theorem Inv.busy_of_unbuilt {s : State} (h : Inv s) (hl : s.life = .unbuilt) : s.busy = false := by
  by_contra hb
  obtain ⟨-, -, hlife⟩ := h.running (by simpa using hb)
  simp [hl] at hlife

/-- Settles O37: with no request running a step leaves the outputs as they are, and UNBUILT is left only by a construction. -/
theorem silentBeforeConstruction : Obligations.SilentBeforeConstruction := by
  intro s t hInv hl h
  have hb := hInv.busy_of_unbuilt hl
  obtain ⟨-, -, -, -, hpins, hout, -, htrace⟩ := hInv.unbuilt hl
  obtain ⟨hparams, -⟩ := selectionIsFixed s t h
  obtain ⟨-, hm⟩ := blockStep_of_step h
  obtain ⟨htr, hps, ho⟩ | ⟨_, hbusy, -⟩ := outputsChangeOnlyByTracedActions s t h
  · refine ⟨htr.trans htrace, by simp [hps, hpins], by rw [ho, hout, hparams], ?_⟩
    obtain hu | hready | ⟨-, hhead⟩ := hm.of_idle hb
    · exact .inl (hu.life.trans hl)
    · simp [hl] at hready
    · exact .inr hhead
  · simp [hb] at hbusy

end Sys2Proof

/-! ### A wrong expander address (R259) -/

namespace Sys2Proof.Machine

open Sys2Proof

/-- What every step keeps, a run keeps. -/
theorem steps_keeps {P : State → Prop} (hP : ∀ s t, P s → step s = .next t → P t) {k : Nat} {s u : State} (h : P s)
    (hs : steps k s = .next u) : P u := by
  induction k generalizing s with
  | zero => cases hs; exact h
  | succ k ih =>
    cases hstep : step s <;> simp only [steps, hstep, reduceCtorEq] at hs
    exact ih (hP _ _ h hstep) hs

/-- A transaction whose address is not acknowledged never answers Ok (41_transport.md R125). -/
theorem answerFor_ne_ok_of_unacknowledged {s : State} {x : Addr7} {v : Byte} (h : acknowledges s.params x = false) :
    answerFor s (.i2cTx x v) ≠ .ok := by
  by_cases hn : nextAnswer s = .ok
  · simp [answerFor_i2cTx_of_ok hn, h]
  · rwa [answerFor_of_not_ok rfl hn]

/-- Every byte an expansion sends on I2C goes to `I2C_ADDR` (41_transport.md R122). -/
theorem addr_of_mem_expand {s : State} {a x : Addr7} {v : Byte} {ms : List Micro} (ht : s.tsel = .val .i2c)
    (ha : s.i2cAddr = .val a) (h : Action.i2cTx x v ∈ expand s ms) : x = a := by
  obtain ⟨m, -, hm⟩ := List.mem_flatMap.mp h
  cases m
  case word w =>
    have howned := busWrite_owned _ _ _ w _ hm
    simpa [ownedAction, readTsel_of_val ht, readAddr_of_val ha, eq_comm] using howned
  all_goals cases List.mem_singleton.mp hm

/-- Each nibble on I2C is sent (R122). -/
theorem send_mem_i2cNib (p : Params) (a : Addr7) (n : Nibble) (d : Bool) :
    Action.i2cTx a (payload p n d true) ∈ i2cNib p a n d :=
  List.mem_append_right _ List.mem_cons_self

/-- An init list on I2C sends something (43_init_sequencer.md R191). -/
theorem exists_send_mem_initList (p : Params) (a : Addr7) (e : BitVec 2) :
    ∃ v, Action.i2cTx a v ∈ expandMicros p .i2c a (initSeq .i2c e) := by
  obtain ⟨c, cs, hcs⟩ : ∃ c cs, initCommands .i2c e = c :: cs := ⟨_, _, rfl⟩
  rw [expandMicros_initSeq, hcs, commandActions_cons]
  have hsend : Action.i2cTx a _ ∈ busWrite p .i2c a (busWord false c.1) :=
    List.mem_append_left _ (List.mem_append_left _ (send_mem_i2cNib ..))
  exact ⟨_, List.mem_cons_of_mem _ (List.mem_append_left _ hsend)⟩

/-- An init sequence that cannot succeed: it has a transaction still to run, and the expander acknowledges none of its addresses. -/
structure UnansweredInit (s : State) : Prop where
  life : s.life = .init
  busy : s.busy = true
  port : s.busPort = []
  unacknowledged : ∀ x v, Action.i2cTx x v ∈ s.acts → acknowledges s.params x = false
  ahead : ∃ x v, Action.i2cTx x v ∈ s.acts.drop s.pc

/-- The block after an initialization that failed (43_init_sequencer.md R197). -/
structure FailedInit (s : State) : Prop where
  life : s.life = .absent
  busy : s.busy = false
  resp : s.resp = .err

/-- A construction that never succeeds, with no transaction answered Ok that is not among the events `tr`. -/
structure NeverAnswered (tr : List Event) (s : State) : Prop where
  phase : UnansweredInit s ∨ FailedInit s
  trace : ∀ x v, (⟨.i2cTx x v, .ok⟩ : Event) ∈ s.trace → (⟨.i2cTx x v, .ok⟩ : Event) ∈ tr

section NeverAnswered

variable {s t : State} {tr : List Event}

/-- A step of such an init sequence is an action before the transaction, an error, or an action that never returns. -/
theorem UnansweredInit.step (h : UnansweredInit s) (hs : step s = .next t) :
    (UnansweredInit t ∨ FailedInit t) ∧ ∃ a o, t.trace = s.trace ++ [⟨a, o⟩] ∧ ∀ x v, (⟨a, o⟩ : Event) ≠ ⟨.i2cTx x v, .ok⟩ := by
  obtain ⟨hl, hb, hport, hack, y, w, hahead⟩ := h
  obtain ⟨hh, -⟩ := blockStep_of_step hs
  have hr : Running s := ⟨hh, hb, hport⟩
  obtain ⟨a, rest, hdrop⟩ := List.exists_cons_of_ne_nil (List.ne_nil_of_mem hahead)
  have ha : s.acts[s.pc]? = some a := by rw [← List.head?_drop, hdrop, List.head?_cons]
  cases hans : answerFor s a
  case ok =>
    obtain rfl : completeAction (afterAnswer s a) a = t := by simpa [step_of_answerOk hr ha hans] using hs
    have hne (x : Addr7) (v : Byte) : a ≠ .i2cTx x v := by
      rintro rfl
      exact answerFor_ne_ok_of_unacknowledged (hack x v (List.mem_of_getElem? ha)) hans
    have hrest : s.acts.drop (s.pc + 1) = rest := by rw [← List.tail_drop, hdrop, List.tail_cons]
    have hlater : Action.i2cTx y w ∈ s.acts.drop (s.pc + 1) := by
      rw [hdrop] at hahead
      exact hrest ▸ (List.mem_cons.mp hahead).resolve_left (hne y w).symm
    exact ⟨.inl ⟨by simpa using hl, by simpa using hb, by simpa using hport, by simpa using hack, y, w, by simpa using hlater⟩,
      a, .ok, by simp, by simpa using hne⟩
  case err took =>
    obtain rfl : errorEntry (afterAnswer s a) a took = t := by simpa [step_of_answerErr hr ha hans] using hs
    exact ⟨.inr ⟨by simp [hl, lifeAtEnd], by simp, by simp⟩, a, .err took, by simp, by simp⟩
  case hang =>
    obtain rfl : hang (afterAnswer s a) a = t := by simpa [step_of_answerHang hr ha hans] using hs
    exact ⟨.inl ⟨by simpa using hl, by simpa using hb, by simpa using hport, by simpa using hack, y, w, by simpa using hahead⟩,
      a, .hang, by simp, by simp⟩

/-- After a failed initialization only the host's side moves (43_init_sequencer.md R197). -/
theorem FailedInit.step (h : FailedInit s) (hs : step s = .next t) : FailedInit t ∧ t.trace = s.trace := by
  obtain ⟨hl, hb, hr⟩ := h
  obtain ⟨-, hm⟩ := blockStep_of_step hs
  obtain ⟨_, _, _, _, rfl⟩ | hready | ⟨hunbuilt, -⟩ := hm.of_idle hb
  · exact ⟨⟨hl, hb, hr⟩, rfl⟩
  · simp [hl] at hready
  · simp [hl] at hunbuilt

theorem NeverAnswered.step (h : NeverAnswered tr s) (hs : step s = .next t) : NeverAnswered tr t := by
  obtain ⟨hinit | hfailed, htrace⟩ := h
  · obtain ⟨hphase, a, o, htr, hne⟩ := hinit.step hs
    refine ⟨hphase, fun x v hm => htrace x v ?_⟩
    rw [htr, List.mem_append, List.mem_singleton] at hm
    exact hm.resolve_right (hne x v).symm
  · obtain ⟨hphase, htr⟩ := hfailed.step hs
    exact ⟨.inr hphase, htr ▸ htrace⟩

end NeverAnswered

/-- A construction at an address the expander does not have starts an init sequence that cannot succeed. -/
theorem unansweredInit_of_newI2c {s t : State} {a : Addr7} (hport : s.busPort = []) (hack : acknowledges s.params a = false)
    (h : exec (.newI2c a) s = .next t) : UnansweredInit t ∧ t.trace = s.trace := by
  obtain ⟨-, -, rfl⟩ := acceptConstruction_next h
  obtain ⟨v, hv⟩ := exists_send_mem_initList s.params a emrAtConstruction
  refine ⟨⟨rfl, rfl, hport, fun x w hm => ?_, a, v, hv⟩, rfl⟩
  rwa [addr_of_mem_expand rfl rfl hm]

end Sys2Proof.Machine

namespace Sys2Proof

open Machine

/-- Settles O45: the init sequence it starts cannot succeed, and every step keeps that. -/
theorem wrongAddressNeverReady : Obligations.WrongAddressNeverReady := by
  intro s t u a e k _ _ _ hport he hne h hrun
  obtain ⟨hinit, htrace⟩ := unansweredInit_of_newI2c hport (acknowledges_of_ne he hne) h
  have hstart : NeverAnswered s.trace t := ⟨.inl hinit, fun _ _ hm => htrace ▸ hm⟩
  obtain ⟨hphase, hok⟩ := steps_keeps (fun _ _ => NeverAnswered.step) hstart hrun
  exact ⟨hphase.imp (·.life) fun hf => ⟨hf.life, hf.resp⟩, hok⟩

end Sys2Proof

/-! ### Half a byte after an error (R248) -/

namespace Sys2Proof.Machine

open Sys2Proof

section Half

variable {p : Params} {t : Transport} {ps : Pins} {o : XVal Byte}

/-- Where E is low after a stretch of the trace, one event more latches nothing, whichever value it leaves (R127). -/
theorem latchesFrom_concat_of_low {es : List Event} (h : (linesOf p t (pinsThrough ps es) (outThrough o es)).e = .L) (e : Event) :
    latchesFrom p t ps o (es ++ [e]) = latchesFrom p t ps o es := by
  rw [latchesFrom_append, latchesFrom, latchOf_of_low h]
  exact List.append_nil _

/-- A P4 write up to an action between its pulses: the upper nibble, its pulse, and a part of the lower one (R119). -/
theorem take_p4Write (b : Byte) (d : Bool) {k : Nat} (hk : k ≤ 4) :
    (p4Write b d).take (9 + k) = .drive .rs (drv d) :: nib4 (upperNibble b) ++ (pulse ++ (nib4 (lowerNibble b)).take k) := by
  have hsplit : p4Write b d = (.drive .rs (drv d) :: nib4 (upperNibble b) ++ pulse) ++
      (nib4 (lowerNibble b) ++ (pulse ++ dropRs d)) := by simp [p4Write]
  have hlen : 9 = (Action.drive .rs (drv d) :: nib4 (upperNibble b) ++ pulse).length := rfl
  rw [hsplit, hlen, List.take_length_add_append, List.take_append_of_le_length hk, List.append_assoc]

/-- A P4 write up to an action between its pulses, and any outcome of that action: only the upper nibble is latched (R119, R127). -/
theorem latchesFrom_half_p4Write (hen : ps.en = .L) (b : Byte) (d : Bool) {k : Nat} (hk : k ≤ 4) (e : Event) :
    latchesFrom p .p4 ps o (((p4Write b d).take (9 + k)).map okEvent ++ [e]) =
      [⟨bitLevel d, [7, 6, 5, 4].map fun j => bitLevel (b.getLsbD j), true⟩] := by
  have hup (l : Drv) : Action.drive .en l ∉ .drive .rs (drv d) :: nib4 (upperNibble b) := by simp [en_notMem_nib4]
  have hlow (l : Drv) : Action.drive .en l ∉ (nib4 (lowerNibble b)).take k :=
    fun h => en_notMem_nib4 _ l (List.mem_of_mem_take h)
  have hen1 := pinsThrough_en_of_quiet hen hup
  rw [take_p4Write b d hk, latchesFrom_concat_of_low, latchesFrom_pulsed (by simp) hen hup, latchesFrom_quiet (by simp) hen1 hlow]
  · simp [linesOf, pinsThrough, pinsAfter, okEvent, tookEffect, Pins.set, nib4, upperNibble]
  · rw [linesOf_e (by simp), List.map_append, List.map_append, pinsThrough_append, pinsThrough_append, pinsThrough_pulse hen1]
    exact pinsThrough_en_of_quiet hen1 hlow

/-- Under ThreeByte an I2C write up to an action between its pulses: the upper nibble, or that and the first payload of the lower
one (R122, R123). -/
theorem take_i2cWrite (hn : p.nibbleSeq = .threeByte) (a : Addr7) (b : Byte) (d : Bool) {k : Nat} (hk : k ≤ 1) :
    (i2cWrite p a b d).take (5 + k) =
      i2cNib p a (upperNibble b) d ++ [Action.i2cTx a (payload p (lowerNibble b) d false)].take k := by
  obtain rfl | rfl := Nat.le_one_iff_eq_zero_or_eq_one.mp hk <;> simp [i2cWrite, i2cNib, hn]

/-- An I2C write up to an action between its pulses, and any outcome of that action: only the upper nibble is latched (R122, R127). -/
theorem latchesFrom_half_i2cWrite (hm : p.expMap.wf = true) (hn : p.nibbleSeq = .threeByte) {v : Byte} (hv : enLow p v = true)
    (a : Addr7) (b : Byte) (d : Bool) {k : Nat} (hk : k ≤ 1) (e : Event) :
    latchesFrom p .i2c ps (.val v) (((i2cWrite p a b d).take (5 + k)).map okEvent ++ [e]) =
      [⟨bitLevel d, [7, 6, 5, 4].map fun j => bitLevel (b.getLsbD j), true⟩] := by
  have hlow (n : Nibble) : (linesOf p .i2c ps (.val (payload p n d false))).e = .L := linesOf_e_of_enLow (enLow_payload hm n d)
  have hupper (f : Event) : latchesFrom p .i2c ps (.val v) ((i2cNib p a (upperNibble b) d).map okEvent ++ [f]) =
      [⟨bitLevel d, [7, 6, 5, 4].map fun j => bitLevel (b.getLsbD j), true⟩] := by
    rw [latchesFrom_concat_of_low, latchesFrom_i2cNib hm hv]
    · simp [upperNibble]
    · rw [pinsThrough_i2cNib, outThrough_i2cNib, hlow]
  rw [take_i2cWrite hn a b d hk]
  obtain rfl | rfl := Nat.le_one_iff_eq_zero_or_eq_one.mp hk
  · simpa using hupper e
  · rw [List.take_succ_cons, List.take_zero, List.map_append, latchesFrom_concat_of_low]
    · exact hupper _
    · rw [pinsThrough_append, pinsThrough_i2cNib, outThrough_append]
      exact hlow _

end Half

end Sys2Proof.Machine

namespace Sys2Proof

open Machine

/-- Settles O50: the pulse before has latched the upper nibble, and E is low where the failing action starts. -/
theorem halfAByteAfterAnError : Obligations.HalfAByteAfterAnError := by
  intro p a ps o b d took j x hen hm ho hn failed half
  refine ⟨fun h9 h13 _ => ?_, fun h5 h6 _ => ?_, fun _ _ => ⟨rfl, by simp [halfByteHeld, half]⟩⟩
  · obtain ⟨k, rfl⟩ := Nat.exists_eq_add_of_le h9
    simp only [failed, busWrite, busByte_busWord, isData_busWord]
    exact latchesFrom_half_p4Write hen b d (by omega) _
  · obtain ⟨k, rfl⟩ := Nat.exists_eq_add_of_le h5
    simp only [failed, busWrite, busByte_busWord, isData_busWord]
    exact latchesFrom_half_i2cWrite hm hn ho a b d (by omega) _

end Sys2Proof

/-! ### Minimum waits (R260) -/

namespace Sys2Proof.Machine

open Sys2Proof

@[simp] theorem addBound_val (m n : Nat) : addBound (.val m) (.val n) = .val (m + n) := rfl

theorem commandActions_nil (p : Params) (t : Transport) (a : Addr7) : commandActions p t a [] = [] := rfl

section Waits

variable {p : Params} {x y : Nat} (hx : p.tEnPw = .val x) (hy : p.tPost = .val y)

include hx hy

/-- A pulse waits once with EN high and once after it (41_transport.md R115). -/
theorem totalWait_pulse : totalWait p pulse = .val (x + y) := by simp [pulse, totalWait, waitBound, hx, hy]

/-- A nibble on I2C waits as a pulse does (41_transport.md R122). -/
theorem totalWait_i2cNib (a : Addr7) (n : Nibble) (d : Bool) : totalWait p (i2cNib p a n d) = .val (x + y) := by
  unfold i2cNib
  split <;> simp [totalWait, waitBound, hx, hy]

/-- A bus word waits one pulse on P8 and two on P4 and I2C (41_transport.md R116, R119, R123). -/
theorem totalWait_busWrite (t : Transport) (a : Addr7) (w : BusWord) :
    totalWait p (busWrite p t a w) = .val (pulseCount t * (x + y)) := by
  have hdrop (d : Bool) : totalWait p (dropRs d) = .val 0 := by cases d <;> rfl
  have hnib (n : Nibble) : totalWait p (nib4 n) = .val 0 := rfl
  have htrailer (c : Prop) [Decidable c] (v : Byte) : totalWait p (if c then [Action.i2cTx a v] else []) = .val 0 := by
    split <;> rfl
  cases t
  case p8 =>
    simp [busWrite, p8Write, totalWait, totalWait_pulse hx hy, totalWait_append, hdrop, pulseCount, onPath8]
  case p4 =>
    simp [busWrite, p4Write, totalWait, totalWait_pulse hx hy, totalWait_append, hdrop, hnib, pulseCount, onPath8, Nat.two_mul]
  case i2c =>
    simp [busWrite, i2cWrite, totalWait_i2cNib hx hy, totalWait_append, htrailer, pulseCount, onPath8, Nat.two_mul]

/-- A bus word and the wait after it. -/
theorem totalWait_busWrite_wait (t : Transport) (a : Addr7) (w : BusWord) {d : Duration} {n : Nat}
    (hd : waitBound p d = .val n) :
    totalWait p (busWrite p t a w ++ [.wait d]) = .val (n + pulseCount t * (x + y)) := by
  simp [totalWait_append, totalWait_busWrite hx hy, totalWait, hd, Nat.add_comm]

/-- The minimum waiting of an init list: its listed waits, and the pulses of its commands (43_init_sequencer.md R191, R192). -/
theorem totalWait_initList (t : Transport) (a : Addr7) (e : BitVec 2) :
    totalWait p (expandMicros p t a (initSeq t e)) =
      .val ((if onPath8 t then 20500 else 20600) + (initCommands t e).length * pulseCount t * (x + y)) := by
  rw [expandMicros_initSeq]
  cases t <;>
    simp [initCommands, onPath8, commandActions_cons, commandActions_nil, totalWait_append, totalWait_busWrite hx hy, totalWait,
      waitBound, pulseCount] <;>
    omega

end Waits

end Sys2Proof.Machine

namespace Sys2Proof

open Machine

/-- Settles O53: an init list command by command; an operation is one bus word and one wait, and a shadow write before them takes
no time. -/
theorem minimumWaits : Obligations.MinimumWaits := by
  refine ⟨fun p a e x y hx hy => ?_, ?_⟩
  · exact ⟨totalWait_initList hx hy .p4 a e, totalWait_initList hx hy .i2c a e, totalWait_initList hx hy .p8 a e⟩
  · intro i s t x y hk hx hy h tail pulses
    have hpulses : pulses = pulseCount (readTsel s) := by
      dsimp only [pulses]
      cases readTsel s <;> rfl
    have hsend (w : BusWord) {d : Duration} {n : Nat} (hd : waitBound s.params d = .val n) :
        totalWait s.params (expand s [.word w, .wait d]) = .val (n + pulses * (x + y)) :=
      hpulses ▸ totalWait_busWrite_wait hx hy (readTsel s) (readAddr s) w hd
    cases i <;> simp only [Instr.kind, reduceCtorEq, exists_const, or_self] at hk
    all_goals
      obtain ⟨-, -, rfl⟩ := acceptOp_next h
      exact hsend _ rfl

end Sys2Proof
